-- ==== Sys2Proof/Word.lean ====
section
/-! DEFINITION. The two word types of the machine (R12: a byte is 8 bits, a word is 16 bits). -/

namespace Sys2Proof

/-- A byte: the width of A, X, Y, S, of the data bus and of every memory access (R10, R30). -/
abbrev Byte := BitVec 8

/-- A 16-bit word: PC and every address (R10, R35, R70). -/
abbrev Addr := BitVec 16

end Sys2Proof
end

