-- ==== Sys2Proof/Machine/Bits.lean ====
section
/-! DEFINITION. Bit fields, byte order and extension: the notation of R13 and R14. -/

namespace Sys2Proof

/-- `hi:lo` of R14: the 16-bit value `hi*256 + lo`. -/
def hiLo (hi lo : Byte) : Addr := hi ++ lo

/-- `a[7:0]` (R13). -/
def lowByte (a : Addr) : Byte := a.extractLsb' 0 8

/-- `a[15:8]` (R13). -/
def highByte (a : Addr) : Byte := a.extractLsb' 8 8

/-- `page(a)`, the high byte of an address (R13). -/
def page (a : Addr) : Byte := highByte a

/-- `zext_16(b)` (R14). -/
def zext16 (b : Byte) : Addr := b.setWidth 16

/-- `sext_16(b)` (R14). -/
def sext16 (b : Byte) : Addr := b.signExtend 16

/-- `s8(b)`: the byte as a signed integer (R14). -/
def s8 (b : Byte) : Int := b.toInt

/-- `v[7]`, the sign bit of a byte. -/
def bit7 (b : Byte) : Bool := b.getLsbD 7

end Sys2Proof
end

