-- ==== Sys2Proof/Syntax.lean ====
section
/-! DEFINITION. The instructions: one constructor per mnemonic of spec/opcode_table.json, its addressing mode
(the table's `mode`) the constructor's operand, so that every row of the table is one constructor with one
operand form (log 14). -/

namespace Sys2Proof

/-- The addressing modes of R170 among which an instruction's operand form is chosen. The other two, implied (R171)
and relative (R184), are never a choice: the mnemonic alone fixes them. -/
inductive Mode where
  | immediate
  | zeroPage
  | zeroPageX
  | zeroPageY
  | absolute
  | absoluteX
  | absoluteY
  | indexedIndirect
  | indirectIndexed
  | accumulator
  | indirect
  deriving DecidableEq, Repr

/-- A memory operand with its operand bytes: the eight modes `Resolve` turns into an effective address for a data
access (R173 to R175, R177 to R181). -/
inductive MemOperand where
  | zp (b : Byte)
  | zpX (b : Byte)
  | zpY (b : Byte)
  | abs (w : Addr)
  | absX (w : Addr)
  | absY (w : Addr)
  | indX (b : Byte)
  | indY (b : Byte)
  deriving DecidableEq, Repr

/-- The operand of a read-class instruction (R186): an immediate byte (R176) or memory. -/
inductive ReadOperand where
  | imm (b : Byte)
  | mem (m : MemOperand)
  deriving DecidableEq, Repr

/-- The operand of a shift or rotate: the accumulator (R172) or memory. -/
inductive ShiftOperand where
  | acc
  | mem (m : MemOperand)
  deriving DecidableEq, Repr

/-- The operand of JMP: absolute (R300) or indirect (R183, R301). -/
inductive JumpOperand where
  | abs (w : Addr)
  | ind (ptr : Addr)
  deriving DecidableEq, Repr

/-- The mode of a memory operand. -/
def MemOperand.mode : MemOperand → Mode
  | .zp _ => .zeroPage
  | .zpX _ => .zeroPageX
  | .zpY _ => .zeroPageY
  | .abs _ => .absolute
  | .absX _ => .absoluteX
  | .absY _ => .absoluteY
  | .indX _ => .indexedIndirect
  | .indY _ => .indirectIndexed

/-- The mode of a read-class operand. -/
def ReadOperand.mode : ReadOperand → Mode
  | .imm _ => .immediate
  | .mem m => m.mode

/-- The mode of a shift or rotate operand. -/
def ShiftOperand.mode : ShiftOperand → Mode
  | .acc => .accumulator
  | .mem m => m.mode

/-- The mode of a JMP operand. -/
def JumpOperand.mode : JumpOperand → Mode
  | .abs _ => .absolute
  | .ind _ => .indirect

/-- The instruction set of R2 and R148: the 56 documented mnemonics, and `undefined op` for the 105 opcode values
of R146. -/
inductive Instr where
  -- loads and stores (R200 to R205)
  | lda (o : ReadOperand)
  | ldx (o : ReadOperand)
  | ldy (o : ReadOperand)
  | sta (m : MemOperand)
  | stx (m : MemOperand)
  | sty (m : MemOperand)
  -- register transfers and stack (R220 to R229)
  | tax
  | tay
  | txa
  | tya
  | tsx
  | txs
  | pha
  | pla
  | plp
  | php
  -- arithmetic, compares, increments and decrements (R242 to R255)
  | adc (o : ReadOperand)
  | sbc (o : ReadOperand)
  | cmp (o : ReadOperand)
  | cpx (o : ReadOperand)
  | cpy (o : ReadOperand)
  | inc (m : MemOperand)
  | dec (m : MemOperand)
  | inx
  | iny
  | dex
  | dey
  -- logic, bit test, shifts and rotates (R270 to R277)
  | and (o : ReadOperand)
  | ora (o : ReadOperand)
  | eor (o : ReadOperand)
  | bit (m : MemOperand)
  | asl (o : ShiftOperand)
  | lsr (o : ShiftOperand)
  | rol (o : ShiftOperand)
  | ror (o : ShiftOperand)
  -- control transfer (R300 to R314)
  | jmp (t : JumpOperand)
  | jsr (w : Addr)
  | rts
  | brk
  | rti
  | bcc (off : Byte)
  | bcs (off : Byte)
  | beq (off : Byte)
  | bne (off : Byte)
  | bmi (off : Byte)
  | bpl (off : Byte)
  | bvc (off : Byte)
  | bvs (off : Byte)
  -- flag instructions, NOP and undefined opcodes (R330 to R339)
  | clc
  | sec
  | cli
  | sei
  | cld
  | sed
  | clv
  | nop
  | undefined (op : Byte)
  deriving DecidableEq, Repr

end Sys2Proof
end

