-- ==== Sys2Proof/WellFormed.lean ====
section
/-! DEFINITION. Which terms of `Instr` are instructions of the machine: the operand forms R148 gives each mnemonic,
and the opcode values R146 calls undefined. -/

namespace Sys2Proof

/-- The 105 undefined opcode values, in the order of R146 (one list per high nibble). -/
def undefinedOpcodes : List Byte :=
  [0x02#8, 0x03#8, 0x04#8, 0x07#8, 0x0B#8, 0x0C#8, 0x0F#8] ++
  [0x12#8, 0x13#8, 0x14#8, 0x17#8, 0x1A#8, 0x1B#8, 0x1C#8, 0x1F#8] ++
  [0x22#8, 0x23#8, 0x27#8, 0x2B#8, 0x2F#8] ++
  [0x32#8, 0x33#8, 0x34#8, 0x37#8, 0x3A#8, 0x3B#8, 0x3C#8, 0x3F#8] ++
  [0x42#8, 0x43#8, 0x44#8, 0x47#8, 0x4B#8, 0x4F#8] ++
  [0x52#8, 0x53#8, 0x54#8, 0x57#8, 0x5A#8, 0x5B#8, 0x5C#8, 0x5F#8] ++
  [0x62#8, 0x63#8, 0x64#8, 0x67#8, 0x6B#8, 0x6F#8] ++
  [0x72#8, 0x73#8, 0x74#8, 0x77#8, 0x7A#8, 0x7B#8, 0x7C#8, 0x7F#8] ++
  [0x80#8, 0x82#8, 0x83#8, 0x87#8, 0x89#8, 0x8B#8, 0x8F#8] ++
  [0x92#8, 0x93#8, 0x97#8, 0x9B#8, 0x9C#8, 0x9E#8, 0x9F#8] ++
  [0xA3#8, 0xA7#8, 0xAB#8, 0xAF#8] ++
  [0xB2#8, 0xB3#8, 0xB7#8, 0xBB#8, 0xBF#8] ++
  [0xC2#8, 0xC3#8, 0xC7#8, 0xCB#8, 0xCF#8] ++
  [0xD2#8, 0xD3#8, 0xD4#8, 0xD7#8, 0xDA#8, 0xDB#8, 0xDC#8, 0xDF#8] ++
  [0xE2#8, 0xE3#8, 0xE7#8, 0xEB#8, 0xEF#8] ++
  [0xF2#8, 0xF3#8, 0xF4#8, 0xF7#8, 0xFA#8, 0xFB#8, 0xFC#8, 0xFF#8]

/-- The eight forms of ADC, AND, CMP, EOR, LDA, ORA and SBC (R148). -/
def aluModes : List Mode :=
  [.indexedIndirect, .zeroPage, .immediate, .absolute, .indirectIndexed, .zeroPageX, .absoluteY, .absoluteX]

/-- The five forms of ASL, LSR, ROL and ROR (R148). -/
def shiftModes : List Mode :=
  [.zeroPage, .accumulator, .absolute, .zeroPageX, .absoluteX]

/-- The forms R148 lists for the instruction include this one, and an undefined opcode is one of R146's. -/
def Instr.wf : Instr → Bool
  | .lda o | .adc o | .sbc o | .cmp o | .and o | .ora o | .eor o => aluModes.contains o.mode
  | .ldx o => [Mode.immediate, .zeroPage, .absolute, .zeroPageY, .absoluteY].contains o.mode
  | .ldy o => [Mode.immediate, .zeroPage, .absolute, .zeroPageX, .absoluteX].contains o.mode
  | .sta m => [Mode.indexedIndirect, .zeroPage, .absolute, .indirectIndexed, .zeroPageX, .absoluteY,
      .absoluteX].contains m.mode
  | .stx m => [Mode.zeroPage, .absolute, .zeroPageY].contains m.mode
  | .sty m => [Mode.zeroPage, .absolute, .zeroPageX].contains m.mode
  | .cpx o | .cpy o => [Mode.immediate, .zeroPage, .absolute].contains o.mode
  | .inc m | .dec m => [Mode.zeroPage, .absolute, .zeroPageX, .absoluteX].contains m.mode
  | .bit m => [Mode.zeroPage, .absolute].contains m.mode
  | .asl o | .lsr o | .rol o | .ror o => shiftModes.contains o.mode
  | .undefined op => undefinedOpcodes.contains op
  | .tax | .tay | .txa | .tya | .tsx | .txs | .pha | .pla | .plp | .php => true
  | .inx | .iny | .dex | .dey => true
  | .jmp _ | .jsr _ | .rts | .brk | .rti => true
  | .bcc _ | .bcs _ | .beq _ | .bne _ | .bmi _ | .bpl _ | .bvc _ | .bvs _ => true
  | .clc | .sec | .cli | .sei | .cld | .sed | .clv | .nop => true

end Sys2Proof
end

