-- ==== Sys2Proof/Decode.lean ====
section
/-! DEFINITION. The decoder (R140 to R147) and, after it, the encoder (R148). The decoder is written from the
opcode map of R145, the encoder from the table by mnemonic of R148: the two are the spec's two copies of the same
data, and that they agree is a statement of the model. -/

namespace Sys2Proof

/-- The three formats of R140 with what follows the opcode byte: nothing (F1), the operand byte (F2), or the 16-bit
operand (F3). -/
inductive Shape where
  | one (i : Instr)
  | two (f : Byte → Instr)
  | three (f : Addr → Instr)

/-- Row 0x of the opcode map (R145). -/
def opcodeRow0 : List (Byte × Shape) :=
  [(0x00#8, .one .brk),
   (0x01#8, .two fun b => .ora (.mem (.indX b))),
   (0x05#8, .two fun b => .ora (.mem (.zp b))),
   (0x06#8, .two fun b => .asl (.mem (.zp b))),
   (0x08#8, .one .php),
   (0x09#8, .two fun b => .ora (.imm b)),
   (0x0A#8, .one (.asl .acc)),
   (0x0D#8, .three fun w => .ora (.mem (.abs w))),
   (0x0E#8, .three fun w => .asl (.mem (.abs w)))]

/-- Row 1x of the opcode map (R145). -/
def opcodeRow1 : List (Byte × Shape) :=
  [(0x10#8, .two .bpl),
   (0x11#8, .two fun b => .ora (.mem (.indY b))),
   (0x15#8, .two fun b => .ora (.mem (.zpX b))),
   (0x16#8, .two fun b => .asl (.mem (.zpX b))),
   (0x18#8, .one .clc),
   (0x19#8, .three fun w => .ora (.mem (.absY w))),
   (0x1D#8, .three fun w => .ora (.mem (.absX w))),
   (0x1E#8, .three fun w => .asl (.mem (.absX w)))]

/-- Row 2x of the opcode map (R145). -/
def opcodeRow2 : List (Byte × Shape) :=
  [(0x20#8, .three .jsr),
   (0x21#8, .two fun b => .and (.mem (.indX b))),
   (0x24#8, .two fun b => .bit (.zp b)),
   (0x25#8, .two fun b => .and (.mem (.zp b))),
   (0x26#8, .two fun b => .rol (.mem (.zp b))),
   (0x28#8, .one .plp),
   (0x29#8, .two fun b => .and (.imm b)),
   (0x2A#8, .one (.rol .acc)),
   (0x2C#8, .three fun w => .bit (.abs w)),
   (0x2D#8, .three fun w => .and (.mem (.abs w))),
   (0x2E#8, .three fun w => .rol (.mem (.abs w)))]

/-- Row 3x of the opcode map (R145). -/
def opcodeRow3 : List (Byte × Shape) :=
  [(0x30#8, .two .bmi),
   (0x31#8, .two fun b => .and (.mem (.indY b))),
   (0x35#8, .two fun b => .and (.mem (.zpX b))),
   (0x36#8, .two fun b => .rol (.mem (.zpX b))),
   (0x38#8, .one .sec),
   (0x39#8, .three fun w => .and (.mem (.absY w))),
   (0x3D#8, .three fun w => .and (.mem (.absX w))),
   (0x3E#8, .three fun w => .rol (.mem (.absX w)))]

/-- Row 4x of the opcode map (R145). -/
def opcodeRow4 : List (Byte × Shape) :=
  [(0x40#8, .one .rti),
   (0x41#8, .two fun b => .eor (.mem (.indX b))),
   (0x45#8, .two fun b => .eor (.mem (.zp b))),
   (0x46#8, .two fun b => .lsr (.mem (.zp b))),
   (0x48#8, .one .pha),
   (0x49#8, .two fun b => .eor (.imm b)),
   (0x4A#8, .one (.lsr .acc)),
   (0x4C#8, .three fun w => .jmp (.abs w)),
   (0x4D#8, .three fun w => .eor (.mem (.abs w))),
   (0x4E#8, .three fun w => .lsr (.mem (.abs w)))]

/-- Row 5x of the opcode map (R145). -/
def opcodeRow5 : List (Byte × Shape) :=
  [(0x50#8, .two .bvc),
   (0x51#8, .two fun b => .eor (.mem (.indY b))),
   (0x55#8, .two fun b => .eor (.mem (.zpX b))),
   (0x56#8, .two fun b => .lsr (.mem (.zpX b))),
   (0x58#8, .one .cli),
   (0x59#8, .three fun w => .eor (.mem (.absY w))),
   (0x5D#8, .three fun w => .eor (.mem (.absX w))),
   (0x5E#8, .three fun w => .lsr (.mem (.absX w)))]

/-- Row 6x of the opcode map (R145). -/
def opcodeRow6 : List (Byte × Shape) :=
  [(0x60#8, .one .rts),
   (0x61#8, .two fun b => .adc (.mem (.indX b))),
   (0x65#8, .two fun b => .adc (.mem (.zp b))),
   (0x66#8, .two fun b => .ror (.mem (.zp b))),
   (0x68#8, .one .pla),
   (0x69#8, .two fun b => .adc (.imm b)),
   (0x6A#8, .one (.ror .acc)),
   (0x6C#8, .three fun w => .jmp (.ind w)),
   (0x6D#8, .three fun w => .adc (.mem (.abs w))),
   (0x6E#8, .three fun w => .ror (.mem (.abs w)))]

/-- Row 7x of the opcode map (R145). -/
def opcodeRow7 : List (Byte × Shape) :=
  [(0x70#8, .two .bvs),
   (0x71#8, .two fun b => .adc (.mem (.indY b))),
   (0x75#8, .two fun b => .adc (.mem (.zpX b))),
   (0x76#8, .two fun b => .ror (.mem (.zpX b))),
   (0x78#8, .one .sei),
   (0x79#8, .three fun w => .adc (.mem (.absY w))),
   (0x7D#8, .three fun w => .adc (.mem (.absX w))),
   (0x7E#8, .three fun w => .ror (.mem (.absX w)))]

/-- Row 8x of the opcode map (R145). -/
def opcodeRow8 : List (Byte × Shape) :=
  [(0x81#8, .two fun b => .sta (.indX b)),
   (0x84#8, .two fun b => .sty (.zp b)),
   (0x85#8, .two fun b => .sta (.zp b)),
   (0x86#8, .two fun b => .stx (.zp b)),
   (0x88#8, .one .dey),
   (0x8A#8, .one .txa),
   (0x8C#8, .three fun w => .sty (.abs w)),
   (0x8D#8, .three fun w => .sta (.abs w)),
   (0x8E#8, .three fun w => .stx (.abs w))]

/-- Row 9x of the opcode map (R145). -/
def opcodeRow9 : List (Byte × Shape) :=
  [(0x90#8, .two .bcc),
   (0x91#8, .two fun b => .sta (.indY b)),
   (0x94#8, .two fun b => .sty (.zpX b)),
   (0x95#8, .two fun b => .sta (.zpX b)),
   (0x96#8, .two fun b => .stx (.zpY b)),
   (0x98#8, .one .tya),
   (0x99#8, .three fun w => .sta (.absY w)),
   (0x9A#8, .one .txs),
   (0x9D#8, .three fun w => .sta (.absX w))]

/-- Row Ax of the opcode map (R145). -/
def opcodeRowA : List (Byte × Shape) :=
  [(0xA0#8, .two fun b => .ldy (.imm b)),
   (0xA1#8, .two fun b => .lda (.mem (.indX b))),
   (0xA2#8, .two fun b => .ldx (.imm b)),
   (0xA4#8, .two fun b => .ldy (.mem (.zp b))),
   (0xA5#8, .two fun b => .lda (.mem (.zp b))),
   (0xA6#8, .two fun b => .ldx (.mem (.zp b))),
   (0xA8#8, .one .tay),
   (0xA9#8, .two fun b => .lda (.imm b)),
   (0xAA#8, .one .tax),
   (0xAC#8, .three fun w => .ldy (.mem (.abs w))),
   (0xAD#8, .three fun w => .lda (.mem (.abs w))),
   (0xAE#8, .three fun w => .ldx (.mem (.abs w)))]

/-- Row Bx of the opcode map (R145). -/
def opcodeRowB : List (Byte × Shape) :=
  [(0xB0#8, .two .bcs),
   (0xB1#8, .two fun b => .lda (.mem (.indY b))),
   (0xB4#8, .two fun b => .ldy (.mem (.zpX b))),
   (0xB5#8, .two fun b => .lda (.mem (.zpX b))),
   (0xB6#8, .two fun b => .ldx (.mem (.zpY b))),
   (0xB8#8, .one .clv),
   (0xB9#8, .three fun w => .lda (.mem (.absY w))),
   (0xBA#8, .one .tsx),
   (0xBC#8, .three fun w => .ldy (.mem (.absX w))),
   (0xBD#8, .three fun w => .lda (.mem (.absX w))),
   (0xBE#8, .three fun w => .ldx (.mem (.absY w)))]

/-- Row Cx of the opcode map (R145). -/
def opcodeRowC : List (Byte × Shape) :=
  [(0xC0#8, .two fun b => .cpy (.imm b)),
   (0xC1#8, .two fun b => .cmp (.mem (.indX b))),
   (0xC4#8, .two fun b => .cpy (.mem (.zp b))),
   (0xC5#8, .two fun b => .cmp (.mem (.zp b))),
   (0xC6#8, .two fun b => .dec (.zp b)),
   (0xC8#8, .one .iny),
   (0xC9#8, .two fun b => .cmp (.imm b)),
   (0xCA#8, .one .dex),
   (0xCC#8, .three fun w => .cpy (.mem (.abs w))),
   (0xCD#8, .three fun w => .cmp (.mem (.abs w))),
   (0xCE#8, .three fun w => .dec (.abs w))]

/-- Row Dx of the opcode map (R145). -/
def opcodeRowD : List (Byte × Shape) :=
  [(0xD0#8, .two .bne),
   (0xD1#8, .two fun b => .cmp (.mem (.indY b))),
   (0xD5#8, .two fun b => .cmp (.mem (.zpX b))),
   (0xD6#8, .two fun b => .dec (.zpX b)),
   (0xD8#8, .one .cld),
   (0xD9#8, .three fun w => .cmp (.mem (.absY w))),
   (0xDD#8, .three fun w => .cmp (.mem (.absX w))),
   (0xDE#8, .three fun w => .dec (.absX w))]

/-- Row Ex of the opcode map (R145). -/
def opcodeRowE : List (Byte × Shape) :=
  [(0xE0#8, .two fun b => .cpx (.imm b)),
   (0xE1#8, .two fun b => .sbc (.mem (.indX b))),
   (0xE4#8, .two fun b => .cpx (.mem (.zp b))),
   (0xE5#8, .two fun b => .sbc (.mem (.zp b))),
   (0xE6#8, .two fun b => .inc (.zp b)),
   (0xE8#8, .one .inx),
   (0xE9#8, .two fun b => .sbc (.imm b)),
   (0xEA#8, .one .nop),
   (0xEC#8, .three fun w => .cpx (.mem (.abs w))),
   (0xED#8, .three fun w => .sbc (.mem (.abs w))),
   (0xEE#8, .three fun w => .inc (.abs w))]

/-- Row Fx of the opcode map (R145). -/
def opcodeRowF : List (Byte × Shape) :=
  [(0xF0#8, .two .beq),
   (0xF1#8, .two fun b => .sbc (.mem (.indY b))),
   (0xF5#8, .two fun b => .sbc (.mem (.zpX b))),
   (0xF6#8, .two fun b => .inc (.zpX b)),
   (0xF8#8, .one .sed),
   (0xF9#8, .three fun w => .sbc (.mem (.absY w))),
   (0xFD#8, .three fun w => .sbc (.mem (.absX w))),
   (0xFE#8, .three fun w => .inc (.absX w))]

/-- The opcode map of R145: the 151 documented opcode values. -/
def opcodeMap : List (Byte × Shape) :=
  opcodeRow0 ++ opcodeRow1 ++ opcodeRow2 ++ opcodeRow3 ++ opcodeRow4 ++ opcodeRow5 ++ opcodeRow6 ++ opcodeRow7 ++
    opcodeRow8 ++ opcodeRow9 ++ opcodeRowA ++ opcodeRowB ++ opcodeRowC ++ opcodeRowD ++ opcodeRowE ++ opcodeRowF

/-- The entry of the opcode table for an opcode byte; none for an undefined opcode (R146). -/
def shapeOf (op : Byte) : Option Shape := opcodeMap.lookup op

/-- The length in bytes the opcode alone determines (R140, R142); an undefined opcode is 1 byte long (R338). -/
def instrLength (op : Byte) : Nat :=
  match shapeOf op with
  | some (.two _) => 2
  | some (.three _) => 3
  | some (.one _) | none => 1

/-- Why a list of bytes is no instruction: it is empty, or ends before the instruction does. No byte value is
rejected (R147). -/
inductive DecodeError where
  | noBytes
  | truncated (op : Byte)
  deriving DecidableEq, Repr

/-- The instruction at the head of a list of bytes, and the bytes after it (R140 to R142, R147). -/
def decode : List Byte → Except DecodeError (Instr × List Byte)
  | [] => .error .noBytes
  | op :: rest =>
    match shapeOf op with
    | none => .ok (.undefined op, rest)
    | some (.one i) => .ok (i, rest)
    | some (.two f) =>
      match rest with
      | b1 :: rest => .ok (f b1, rest)
      | [] => .error (.truncated op)
    | some (.three f) =>
      match rest with
      | b1 :: b2 :: rest => .ok (f (hiLo b2 b1), rest)
      | _ => .error (.truncated op)

/-- The opcode byte of an instruction, from the table by mnemonic of R148 and the list of R146; none for a form the
mnemonic does not have. -/
def Instr.opcode : Instr → Option Byte
  | .adc o => [(Mode.indexedIndirect, 0x61#8), (.zeroPage, 0x65#8), (.immediate, 0x69#8), (.absolute, 0x6D#8),
      (.indirectIndexed, 0x71#8), (.zeroPageX, 0x75#8), (.absoluteY, 0x79#8), (.absoluteX, 0x7D#8)].lookup o.mode
  | .and o => [(Mode.indexedIndirect, 0x21#8), (.zeroPage, 0x25#8), (.immediate, 0x29#8), (.absolute, 0x2D#8),
      (.indirectIndexed, 0x31#8), (.zeroPageX, 0x35#8), (.absoluteY, 0x39#8), (.absoluteX, 0x3D#8)].lookup o.mode
  | .asl o => [(Mode.zeroPage, 0x06#8), (.accumulator, 0x0A#8), (.absolute, 0x0E#8), (.zeroPageX, 0x16#8),
      (.absoluteX, 0x1E#8)].lookup o.mode
  | .bcc _ => some 0x90#8
  | .bcs _ => some 0xB0#8
  | .beq _ => some 0xF0#8
  | .bit o => [(Mode.zeroPage, 0x24#8), (.absolute, 0x2C#8)].lookup o.mode
  | .bmi _ => some 0x30#8
  | .bne _ => some 0xD0#8
  | .bpl _ => some 0x10#8
  | .brk => some 0x00#8
  | .bvc _ => some 0x50#8
  | .bvs _ => some 0x70#8
  | .clc => some 0x18#8
  | .cld => some 0xD8#8
  | .cli => some 0x58#8
  | .clv => some 0xB8#8
  | .cmp o => [(Mode.indexedIndirect, 0xC1#8), (.zeroPage, 0xC5#8), (.immediate, 0xC9#8), (.absolute, 0xCD#8),
      (.indirectIndexed, 0xD1#8), (.zeroPageX, 0xD5#8), (.absoluteY, 0xD9#8), (.absoluteX, 0xDD#8)].lookup o.mode
  | .cpx o => [(Mode.immediate, 0xE0#8), (.zeroPage, 0xE4#8), (.absolute, 0xEC#8)].lookup o.mode
  | .cpy o => [(Mode.immediate, 0xC0#8), (.zeroPage, 0xC4#8), (.absolute, 0xCC#8)].lookup o.mode
  | .dec o => [(Mode.zeroPage, 0xC6#8), (.absolute, 0xCE#8), (.zeroPageX, 0xD6#8), (.absoluteX, 0xDE#8)].lookup o.mode
  | .dex => some 0xCA#8
  | .dey => some 0x88#8
  | .eor o => [(Mode.indexedIndirect, 0x41#8), (.zeroPage, 0x45#8), (.immediate, 0x49#8), (.absolute, 0x4D#8),
      (.indirectIndexed, 0x51#8), (.zeroPageX, 0x55#8), (.absoluteY, 0x59#8), (.absoluteX, 0x5D#8)].lookup o.mode
  | .inc o => [(Mode.zeroPage, 0xE6#8), (.absolute, 0xEE#8), (.zeroPageX, 0xF6#8), (.absoluteX, 0xFE#8)].lookup o.mode
  | .inx => some 0xE8#8
  | .iny => some 0xC8#8
  | .jmp o => [(Mode.absolute, 0x4C#8), (.indirect, 0x6C#8)].lookup o.mode
  | .jsr _ => some 0x20#8
  | .lda o => [(Mode.indexedIndirect, 0xA1#8), (.zeroPage, 0xA5#8), (.immediate, 0xA9#8), (.absolute, 0xAD#8),
      (.indirectIndexed, 0xB1#8), (.zeroPageX, 0xB5#8), (.absoluteY, 0xB9#8), (.absoluteX, 0xBD#8)].lookup o.mode
  | .ldx o => [(Mode.immediate, 0xA2#8), (.zeroPage, 0xA6#8), (.absolute, 0xAE#8), (.zeroPageY, 0xB6#8),
      (.absoluteY, 0xBE#8)].lookup o.mode
  | .ldy o => [(Mode.immediate, 0xA0#8), (.zeroPage, 0xA4#8), (.absolute, 0xAC#8), (.zeroPageX, 0xB4#8),
      (.absoluteX, 0xBC#8)].lookup o.mode
  | .lsr o => [(Mode.zeroPage, 0x46#8), (.accumulator, 0x4A#8), (.absolute, 0x4E#8), (.zeroPageX, 0x56#8),
      (.absoluteX, 0x5E#8)].lookup o.mode
  | .nop => some 0xEA#8
  | .ora o => [(Mode.indexedIndirect, 0x01#8), (.zeroPage, 0x05#8), (.immediate, 0x09#8), (.absolute, 0x0D#8),
      (.indirectIndexed, 0x11#8), (.zeroPageX, 0x15#8), (.absoluteY, 0x19#8), (.absoluteX, 0x1D#8)].lookup o.mode
  | .pha => some 0x48#8
  | .php => some 0x08#8
  | .pla => some 0x68#8
  | .plp => some 0x28#8
  | .rol o => [(Mode.zeroPage, 0x26#8), (.accumulator, 0x2A#8), (.absolute, 0x2E#8), (.zeroPageX, 0x36#8),
      (.absoluteX, 0x3E#8)].lookup o.mode
  | .ror o => [(Mode.zeroPage, 0x66#8), (.accumulator, 0x6A#8), (.absolute, 0x6E#8), (.zeroPageX, 0x76#8),
      (.absoluteX, 0x7E#8)].lookup o.mode
  | .rti => some 0x40#8
  | .rts => some 0x60#8
  | .sbc o => [(Mode.indexedIndirect, 0xE1#8), (.zeroPage, 0xE5#8), (.immediate, 0xE9#8), (.absolute, 0xED#8),
      (.indirectIndexed, 0xF1#8), (.zeroPageX, 0xF5#8), (.absoluteY, 0xF9#8), (.absoluteX, 0xFD#8)].lookup o.mode
  | .sec => some 0x38#8
  | .sed => some 0xF8#8
  | .sei => some 0x78#8
  | .sta o => [(Mode.indexedIndirect, 0x81#8), (.zeroPage, 0x85#8), (.absolute, 0x8D#8), (.indirectIndexed, 0x91#8),
      (.zeroPageX, 0x95#8), (.absoluteY, 0x99#8), (.absoluteX, 0x9D#8)].lookup o.mode
  | .stx o => [(Mode.zeroPage, 0x86#8), (.absolute, 0x8E#8), (.zeroPageY, 0x96#8)].lookup o.mode
  | .sty o => [(Mode.zeroPage, 0x84#8), (.absolute, 0x8C#8), (.zeroPageX, 0x94#8)].lookup o.mode
  | .tax => some 0xAA#8
  | .tay => some 0xA8#8
  | .tsx => some 0xBA#8
  | .txa => some 0x8A#8
  | .txs => some 0x9A#8
  | .tya => some 0x98#8
  | .undefined op => if undefinedOpcodes.contains op then some op else none

/-- The operand bytes of a memory operand, low byte first (R141). -/
def MemOperand.bytes : MemOperand → List Byte
  | .zp b | .zpX b | .zpY b | .indX b | .indY b => [b]
  | .abs w | .absX w | .absY w => [lowByte w, highByte w]

/-- The operand bytes of a read-class operand. -/
def ReadOperand.bytes : ReadOperand → List Byte
  | .imm b => [b]
  | .mem m => m.bytes

/-- The operand bytes of a shift or rotate operand. -/
def ShiftOperand.bytes : ShiftOperand → List Byte
  | .acc => []
  | .mem m => m.bytes

/-- The operand bytes of a JMP operand. -/
def JumpOperand.bytes : JumpOperand → List Byte
  | .abs w | .ind w => [lowByte w, highByte w]

/-- The operand bytes of an instruction (R140, R141). -/
def Instr.operandBytes : Instr → List Byte
  | .lda o | .ldx o | .ldy o | .adc o | .sbc o | .cmp o | .cpx o | .cpy o | .and o | .ora o | .eor o => o.bytes
  | .sta m | .stx m | .sty m | .inc m | .dec m | .bit m => m.bytes
  | .asl o | .lsr o | .rol o | .ror o => o.bytes
  | .jmp t => t.bytes
  | .jsr w => [lowByte w, highByte w]
  | .bcc off | .bcs off | .beq off | .bne off | .bmi off | .bpl off | .bvc off | .bvs off => [off]
  | .tax | .tay | .txa | .tya | .tsx | .txs | .pha | .pla | .plp | .php => []
  | .inx | .iny | .dex | .dey | .rts | .brk | .rti => []
  | .clc | .sec | .cli | .sei | .cld | .sed | .clv | .nop | .undefined _ => []

/-- The bytes of an instruction: its opcode, then its operand bytes; none for a term that is not well formed. -/
def encode (i : Instr) : Option (List Byte) :=
  i.opcode.map (· :: i.operandBytes)

/-- The first three bytes of an instruction whose bits are the low `nbits` of `w`, bit 0 the least significant bit
of the first byte; every bit above is 0. -/
def tableBytes (nbits w : Nat) : List Byte :=
  let v := w % 2 ^ nbits
  [BitVec.ofNat 8 v, BitVec.ofNat 8 (v / 0x100), BitVec.ofNat 8 (v / 0x10000)]

/-- The instruction the decoder reads from an instruction word numbered as spec/opcode_table.json numbers it. -/
def decodeTableWord (nbits w : Nat) : Option Instr :=
  match decode (tableBytes nbits w) with
  | .ok (i, _) => some i
  | .error _ => none

end Sys2Proof
end

