-- ==== Sys2Proof/Config.lean ====
section
/-! DEFINITION. The parameters a model of the machine takes (R10) and when they are legal (R10, R11, R450).
They are no state of the hardware (R54). The machine's State carries them in one field that no step changes, so
that a statement about every state is a statement about every configuration (log 1). -/

namespace Sys2Proof

/-- `DecimalMode` of R10 (D3). -/
inductive DecimalMode where
  | nmos
  | binaryOnly
  deriving DecidableEq, Repr

/-- `UnderscorePolicy` of R10 (D14): what a display-data write of 0x5F does. -/
inductive UnderscorePolicy where
  | erase
  | emit
  | eraseThenEmit
  deriving DecidableEq, Repr

/-- `IllegalPolicy` of R10 (D2): what an undefined opcode does. -/
inductive IllegalPolicy where
  | nopReport
  | fault
  deriving DecidableEq, Repr

/-- The parameters of R10. `Clock` is not among them: it is the State field `clock` (log 6). -/
structure Config where
  ramSize          : Nat
  romImage         : List Byte
  basicImage       : List Byte
  resetAddress     : Addr
  portKbd          : Addr
  portKbdCr        : Addr
  portDsp          : Addr
  portDspCr        : Addr
  displayDelay     : Nat
  windowWidth      : Nat
  resetSP          : Byte
  decimalMode      : DecimalMode
  underscorePolicy : UnderscorePolicy
  illegalPolicy    : IllegalPolicy
  deriving DecidableEq, Repr

namespace Config

/-- The four port addresses, in the order of R100. -/
def ports (c : Config) : List Addr :=
  [c.portKbd, c.portKbdCr, c.portDsp, c.portDspCr]

/-- A port address R11 allows: not RAM, not in a ROM or vector range. -/
def portAllowed (c : Config) (a : Addr) : Bool :=
  decide (c.ramSize ≤ a.toNat) &&
    !(decide (0xE000 ≤ a.toNat) && decide (a.toNat ≤ 0xEFFF)) && !decide (0xFF00 ≤ a.toNat)

/-- The legal configurations: R10's ranges, R11's port constraint, R450's construction test. -/
def legal (c : Config) : Bool :=
  decide (c.ramSize ≤ 0xD00F) && decide (c.romImage.length = 252) && decide (c.basicImage.length = 4096) &&
    decide (1 ≤ c.windowWidth) && decide c.ports.Nodup && c.ports.all c.portAllowed

/-- A ROM image of zeros. -/
def blankImage (n : Nat) : List Byte := List.replicate n 0x00#8

/-- The default configuration of 95_test_vectors.md: R10's defaults, and for the parameters R10 leaves OPEN the
values the spec's own vectors use. DESIGN CHOICE, unsafe for statements about `State.reset` alone (log 2). -/
def default : Config where
  ramSize          := 0x8000
  romImage         := blankImage 252
  basicImage       := blankImage 4096
  resetAddress     := 0x0200#16
  portKbd          := 0xD010#16
  portKbdCr        := 0xD011#16
  portDsp          := 0xD012#16
  portDspCr        := 0xD013#16
  displayDelay     := 5
  windowWidth      := 40
  resetSP          := 0xFD#8
  decimalMode      := .nmos
  underscorePolicy := .erase
  illegalPolicy    := .nopReport

end Config

end Sys2Proof
end

