-- ==== Sys2Proof/Machine/State.lean ====
section
/-! DEFINITION. The state of the machine (10_state.md), the reasons a step can stop, and the state after reset. -/

namespace Sys2Proof.Machine

/-- RAM: (address, byte) cells, addresses rising, no cell holding what an unlisted address reads as (log 3). -/
abbrev Memory := List Host.Cell

/-- The six stored flags of P (R36, R37): bits 5 and 4 have no storage. -/
structure Flags where
  n : Bool
  v : Bool
  d : Bool
  i : Bool
  z : Bool
  c : Bool
  deriving DecidableEq, Repr

/-- The opcode trace (R49): address and opcode byte of the last instruction. -/
structure Trace where
  lastPC     : Addr
  lastOpcode : Byte
  deriving DecidableEq, Repr

/-- A diagnostic event (R50). -/
inductive DiagEvent where
  | writeRejected (addr : Addr) (value : Byte)
  | illegalOpcode (pc : Addr) (opcode : Byte)
  deriving DecidableEq, Repr

/-- A display event (R51), a call of one host display callback (R52). -/
inductive DisplayEvent where
  | advanceLine
  | erasePreviousColumn
  | emitGlyph (c : BitVec 7)
  deriving DecidableEq, Repr

/-- The host's and the clock's moves between two CPU steps (R420): one for each liberty of R426. -/
inductive HostMove where
  | reset
  | setKey (c : Byte)
  | read (a : Addr)
  | write (a : Addr) (v : Byte)
  | bulkLoad (address : Nat) (bytes : List Byte)
  | bulkSave (first last : Nat)
  | advanceClock (ticks : Nat)
  deriving DecidableEq, Repr

/-- Whose move it is (R20): the CPU's `step()`, or one move of the host or the clock. -/
inductive Move where
  | cpu
  | host (m : HostMove)
  deriving DecidableEq, Repr

/-- What a host move answers the host (R422, R424, R425): the model's own record (log 9). -/
inductive Reply where
  | byte (v : Byte)
  | loaded
  | saved (bytes : List Byte)
  | rejected
  deriving DecidableEq, Repr

/-- Everything the spec gives the machine (10_state.md). -/
structure State where
  /-- the parameters of R10, which no step changes (R54; log 1) -/
  cfg          : Config
  /-- accumulator (R31) -/
  a            : Byte
  /-- index register X (R32) -/
  x            : Byte
  /-- index register Y (R33) -/
  y            : Byte
  /-- stack pointer S (R34) -/
  sp           : Byte
  /-- program counter (R35) -/
  pc           : Addr
  /-- the stored flags of P (R36 to R42) -/
  p            : Flags
  /-- RAM contents (R45) -/
  ram          : Memory
  /-- the one-character keyboard latch (R43) -/
  keyboardLatch : Option Byte
  /-- the display's nextReadyTimestamp (R44) -/
  nextReady    : Option Nat
  /-- the value of Clock.now() during the next step (R53; log 6) -/
  clock        : Nat
  /-- the host's cursor column (R52, D16; log 7) -/
  column       : Nat
  /-- the output trace of display callbacks, oldest first (R51) -/
  display      : List DisplayEvent
  /-- the diagnostic log, oldest first (R50) -/
  diag         : List DiagEvent
  /-- the cycle counter (R47) -/
  cycles       : Nat
  /-- the opcode trace (R49) -/
  trace        : Trace
  /-- set by the first reset() (R48, R458) -/
  booted       : Bool
  /-- the faulted state of IllegalPolicy = fault (R339; log 8) -/
  faulted      : Bool
  /-- the moves the agents take next; empty means the CPU moves (R20, R426; log 5) -/
  agenda       : List Move
  /-- the answers the host has been given, oldest first (log 9) -/
  replies      : List Reply
  deriving DecidableEq, Repr

/-- Why a step stops. No instruction raises either (R400, R343): both are checked before the fetch. -/
inductive Fault where
  /-- A CPU step before the first `reset()`: "the model has no transition for it" (R458). Raised by `cpuStep`. Safe. -/
  | notBooted
  /-- A CPU step of a machine that an undefined opcode has put in the faulted state, under `IllegalPolicy = fault`
  only (R339). Raised by `cpuStep`. Safe. -/
  | faultedState
  deriving DecidableEq, Repr

/-- Why something is refused. -/
inductive Refusal where
  /-- An instruction without a meaning yet. Raised by `exec`'s refused arms alone. Safe. -/
  | notModelled (mnemonic : String)
  /-- Construction with parameters that are not legal: "a failed construction yields no machine" (R450, R11). Raised
  by `State.construct`, never by a step. Safe. -/
  | configurationError
  deriving DecidableEq, Repr

namespace State

/-! Updates of one field each; Sys2Proof/Laws/State.lean says of each what it leaves alone. -/

def setA (s : State) (v : Byte) : State := { s with a := v }

def setX (s : State) (v : Byte) : State := { s with x := v }

def setY (s : State) (v : Byte) : State := { s with y := v }

def setSP (s : State) (v : Byte) : State := { s with sp := v }

def setPC (s : State) (v : Addr) : State := { s with pc := v }

def setP (s : State) (p : Flags) : State := { s with p := p }

def setRam (s : State) (m : Memory) : State := { s with ram := m }

def setLatch (s : State) (l : Option Byte) : State := { s with keyboardLatch := l }

def setReady (s : State) (t : Nat) : State := { s with nextReady := some t }

def setTrace (s : State) (t : Trace) : State := { s with trace := t }

def setAgenda (s : State) (l : List Move) : State := { s with agenda := l }

/-- `cycles <- cycles + n` (R17). -/
def addCycles (s : State) (n : Nat) : State := { s with cycles := s.cycles + n }

/-- `report E` (R17): append one event to the diagnostic log and change nothing else. -/
def report (s : State) (e : DiagEvent) : State := { s with diag := s.diag ++ [e] }

/-- Record an answer to the host (log 9). -/
def reply (s : State) (r : Reply) : State := { s with replies := s.replies ++ [r] }

/-- One display callback: its event, and the column the host's cursor is left in (R51, R52). -/
def callback (s : State) (e : DisplayEvent) (column : Nat) : State :=
  { s with display := s.display ++ [e], column := column }

/-- The machine right after `reset()` (R57), in the default configuration of 95_test_vectors.md (log 2). What
`reset()` leaves alone has its construction value of R56; RAM lists nothing (log 3); the clock and the trace, for
which the spec gives no value, are 0 (log 4). -/
def reset : State where
  cfg           := Config.default
  a             := 0x00#8
  x             := 0x00#8
  y             := 0x00#8
  sp            := 0xFD#8
  pc            := 0x0200#16
  p             := { n := false, v := false, d := false, i := true, z := false, c := false }
  ram           := []
  keyboardLatch := none
  nextReady     := none
  clock         := 0
  column        := 0
  display       := []
  diag          := []
  cycles        := 0
  trace         := { lastPC := 0x0000#16, lastOpcode := 0x00#8 }
  booted        := true
  faulted       := false
  agenda        := []
  replies       := []

end State

end Sys2Proof.Machine
end

