-- ==== Sys2Proof/Machine/Flags.lean ====
section
/-! DEFINITION. The status byte (R36, R37) and every flag computation: N and Z (R17), addition and subtraction in
binary and decimal (R241 to R245), compares (R246), shifts and rotates (R274 to R277). -/

namespace Sys2Proof.Machine

/-- One flag at its bit position: `f << k` (R14). -/
def flagBit (f : Bool) (k : Nat) : Byte := if f then 1#8 <<< k else 0#8

/-- `PushP`: the byte PHP and BRK push, bits 5 and 4 both 1 (R37). -/
def Flags.pushed (p : Flags) : Byte :=
  flagBit p.n 7 ||| flagBit p.v 6 ||| flagBit true 5 ||| flagBit true 4 |||
    flagBit p.d 3 ||| flagBit p.i 2 ||| flagBit p.z 1 ||| flagBit p.c 0

/-- The host's diagnostic view of P: bit 5 reads 1 and bit 4 reads 0 (R37, R423). -/
def Flags.diagnosticView (p : Flags) : Byte :=
  flagBit p.n 7 ||| flagBit p.v 6 ||| flagBit true 5 |||
    flagBit p.d 3 ||| flagBit p.i 2 ||| flagBit p.z 1 ||| flagBit p.c 0

/-- The flags PLP and RTI take from a pulled byte; bits 5 and 4 are discarded (R37). -/
def Flags.pulled (b : Byte) : Flags where
  n := b.getLsbD 7
  v := b.getLsbD 6
  d := b.getLsbD 3
  i := b.getLsbD 2
  z := b.getLsbD 1
  c := b.getLsbD 0

/-- `SetNZ(v)` (R17). -/
def Flags.setNZ (p : Flags) (v : Byte) : Flags :=
  { p with n := bit7 v, z := decide (v = 0#8) }

/-- Write C. -/
def Flags.setC (p : Flags) (c : Bool) : Flags := { p with c := c }

/-- A carry flag as the number 0 or 1. -/
def carryIn (c : Bool) : Nat := if c then 1 else 0

/-- What an addition or a subtraction leaves: the accumulator's new value and the four flags it writes. -/
structure Arith where
  value : Byte
  n     : Bool
  v     : Bool
  z     : Bool
  c     : Bool
  deriving DecidableEq, Repr

/-- Write the four flags of an addition or a subtraction; D and I stay. -/
def Flags.setArith (p : Flags) (r : Arith) : Flags :=
  { p with n := r.n, v := r.v, z := r.z, c := r.c }

/-- Binary ADC (R242, with R241's V). -/
def adcBinary (a m : Byte) (c : Bool) : Arith :=
  let t := a.toNat + m.toNat + carryIn c
  let r := BitVec.ofNat 8 t
  { value := r
    n := bit7 r
    v := decide ((a ^^^ r) &&& (m ^^^ r) &&& 0x80#8 ≠ 0#8)
    z := decide (r = 0#8)
    c := decide (0xFF < t) }

/-- The low decimal digit sum with its carry into the high digit: `al` of R243 after its adjustment. -/
def adcLowDigit (a m : Byte) (c : Bool) : Nat :=
  let al := (a &&& 0x0F#8).toNat + (m &&& 0x0F#8).toNat + carryIn c
  if 0x0A ≤ al then (al + 0x06) % 0x10 + 0x10 else al

/-- `AdcDecimal(M)`, the NMOS decimal addition (R243). -/
def adcDecimal (a m : Byte) (c : Bool) : Arith :=
  let bin := BitVec.ofNat 8 (a.toNat + m.toNat + carryIn c)
  let al := adcLowDigit a m c
  let s : Int := s8 (a &&& 0xF0#8) + s8 (m &&& 0xF0#8) + al
  let r := (a &&& 0xF0#8).toNat + (m &&& 0xF0#8).toNat + al
  let r := if 0xA0 ≤ r then r + 0x60 else r
  { value := BitVec.ofNat 8 r
    n := bit7 (BitVec.ofInt 8 s)
    v := decide (s < -128) || decide (127 < s)
    z := decide (bin = 0#8)
    c := decide (0x100 ≤ r) }

/-- Binary SBC (R244): the addition of the complement, C the "no borrow" flag. -/
def sbcBinary (a m : Byte) (c : Bool) : Arith :=
  let t := a.toNat + (~~~m &&& 0xFF#8).toNat + carryIn c
  let bin := BitVec.ofNat 8 t
  { value := bin
    n := bit7 bin
    v := decide ((a ^^^ m) &&& (a ^^^ bin) &&& 0x80#8 ≠ 0#8)
    z := decide (bin = 0#8)
    c := decide (0xFF < t) }

/-- The low decimal digit difference with its borrow from the high digit: `al` of R245 after its adjustment. The
remainder is the spec's `& 0x0F` on a negative integer (R243). -/
def sbcLowDigit (a m : Byte) (c : Bool) : Int :=
  let al : Int := ((a &&& 0x0F#8).toNat : Int) - (m &&& 0x0F#8).toNat + carryIn c - 1
  if al < 0 then (al - 0x06) % 0x10 - 0x10 else al

/-- `SbcDecimal(M)`, the NMOS decimal difference (R245). -/
def sbcDecimalValue (a m : Byte) (c : Bool) : Byte :=
  let r : Int := ((a &&& 0xF0#8).toNat : Int) - (m &&& 0xF0#8).toNat + sbcLowDigit a m c
  BitVec.ofInt 8 (if r < 0 then r - 0x60 else r)

/-- Decimal SBC: the value of R245, the flags of the binary difference (R244). -/
def sbcDecimal (a m : Byte) (c : Bool) : Arith :=
  { sbcBinary a m c with value := sbcDecimalValue a m c }

/-- D selects decimal arithmetic only when `DecimalMode = nmos` (R242, R244). -/
def decimalSelected (cfg : Config) (p : Flags) : Bool :=
  p.d && decide (cfg.decimalMode = .nmos)

/-- ADC of accumulator and operand (R242). -/
def adcResult (cfg : Config) (p : Flags) (a m : Byte) : Arith :=
  if decimalSelected cfg p then adcDecimal a m p.c else adcBinary a m p.c

/-- SBC of accumulator and operand (R244). -/
def sbcResult (cfg : Config) (p : Flags) (a m : Byte) : Arith :=
  if decimalSelected cfg p then sbcDecimal a m p.c else sbcBinary a m p.c

/-- The flags of a compare of register `r` with operand `m` (R246 to R248). -/
def Flags.setCompare (p : Flags) (r m : Byte) : Flags :=
  (p.setNZ (r - m)).setC (decide (m.toNat ≤ r.toNat))

/-- The flags of BIT (R273): N and V from the operand, Z from `A & M`. -/
def Flags.setBit (p : Flags) (a m : Byte) : Flags :=
  { p with n := m.getLsbD 7, v := m.getLsbD 6, z := decide (a &&& m = 0#8) }

/-- What a shift or rotate leaves: the new operand and the carry. -/
structure Shifted where
  value : Byte
  carry : Bool
  deriving DecidableEq, Repr

/-- ASL (R274). -/
def aslResult (v : Byte) : Shifted := { value := v <<< 1, carry := v.getLsbD 7 }

/-- LSR (R275). -/
def lsrResult (v : Byte) : Shifted := { value := v >>> 1, carry := v.getLsbD 0 }

/-- ROL through the old carry (R276). -/
def rolResult (c : Bool) (v : Byte) : Shifted :=
  { value := (v <<< 1) ||| flagBit c 0, carry := v.getLsbD 7 }

/-- ROR through the old carry (R277). -/
def rorResult (c : Bool) (v : Byte) : Shifted :=
  { value := (v >>> 1) ||| flagBit c 7, carry := v.getLsbD 0 }

/-- The flags of a shift or rotate: C the bit shifted out, N and Z from the result (R274 to R277). -/
def Flags.setShift (p : Flags) (r : Shifted) : Flags :=
  (p.setNZ r.value).setC r.carry

end Sys2Proof.Machine
end

