-- ==== Sys2Proof/Machine/Ops.lean ====
section
/-! DEFINITION. The operations over memory and registers (20_memory.md): the RAM list, the address decode with its
reads, writes and port effects, the stack, and the one trap entry and return (R404, R405). -/

namespace Sys2Proof.Machine

/-! ### RAM as a canonical list of cells -/

/-- What an unlisted RAM address reads as. DESIGN CHOICE: R45 leaves RAM at construction unspecified; the spec's own
vectors use 0 (D20). Unsafe (log 3). -/
def Memory.blank : Byte := 0x00#8

/-- The byte at an address. -/
def Memory.get : Memory → Nat → Byte
  | [], _ => Memory.blank
  | (k, v) :: m, a => if k = a then v else Memory.get m a

/-- The list with the byte at an address replaced, in canonical form. -/
def Memory.set : Memory → Nat → Byte → Memory
  | [], a, v => if v = Memory.blank then [] else [(a, v)]
  | (k, w) :: m, a, v =>
    if a < k then if v = Memory.blank then (k, w) :: m else (a, v) :: (k, w) :: m
    else if a = k then if v = Memory.blank then m else (a, v) :: m
    else (k, w) :: Memory.set m a v

/-- Addresses at least `lo`, strictly rising, no cell holding the blank byte. -/
def Memory.wfFrom : Nat → Memory → Bool
  | _, [] => true
  | lo, (k, v) :: m => decide (lo ≤ k) && decide (v ≠ Memory.blank) && Memory.wfFrom (k + 1) m

/-- The canonical form of RAM (log 3): equal contents are equal lists. -/
def Memory.wf (m : Memory) : Bool := Memory.wfFrom 0 m

/-! ### The address decode -/

/-- The cases of `read` (R72), case 2 split into its four ports. -/
inductive Region where
  | ram
  | kbd
  | kbdCr
  | dsp
  | dspCr
  | basic
  | rom
  | vectorLow
  | vectorHigh
  | unmapped
  deriving DecidableEq, Repr

/-- Which case of the decode takes an address: the order of R72, exact port addresses (C3). -/
def regionOf (cfg : Config) (a : Addr) : Region :=
  if a.toNat < cfg.ramSize then .ram
  else if a = cfg.portKbd then .kbd
  else if a = cfg.portKbdCr then .kbdCr
  else if a = cfg.portDsp then .dsp
  else if a = cfg.portDspCr then .dspCr
  else if 0xE000 ≤ a.toNat ∧ a.toNat ≤ 0xEFFF then .basic
  else if 0xFF00 ≤ a.toNat ∧ a.toNat ≤ 0xFFFB then .rom
  else if a = 0xFFFC#16 then .vectorLow
  else if a = 0xFFFD#16 then .vectorHigh
  else .unmapped

/-- Keyboard-data as it reads: the latched character with bit 7 set, else 0x00 (R101). -/
def kbdByte (s : State) : Byte :=
  match s.keyboardLatch with
  | some c => 0x80#8 ||| c
  | none => 0x00#8

/-- Keyboard-control as it reads (R102). -/
def kbdCrByte (s : State) : Byte :=
  if s.keyboardLatch.isSome then 0x80#8 else 0x00#8

/-- Display-control as it reads (R105): busy until the clock has passed the timestamp. -/
def dspCrByte (s : State) : Byte :=
  match s.nextReady with
  | none => 0x00#8
  | some r => if r < s.clock then 0x00#8 else 0x80#8

/-- The byte `read(addr)` returns (R72), without the read's side effect. -/
def peek (s : State) (a : Addr) : Byte :=
  match regionOf s.cfg a with
  | .ram => Memory.get s.ram a.toNat
  | .kbd => kbdByte s
  | .kbdCr => kbdCrByte s
  | .dsp => 0x00#8
  | .dspCr => dspCrByte s
  | .basic => s.cfg.basicImage.getD (a.toNat - 0xE000) 0x00#8
  | .rom => s.cfg.romImage.getD (a.toNat - 0xFF00) 0x00#8
  | .vectorLow => lowByte s.cfg.resetAddress
  | .vectorHigh => highByte s.cfg.resetAddress
  | .unmapped => 0x00#8

/-- The side effect of `read(addr)`: a keyboard-data read clears the latch (R101); no other read has one (R92). -/
def touch (s : State) (a : Addr) : State :=
  match regionOf s.cfg a with
  | .kbd => s.setLatch none
  | .ram | .kbdCr | .dsp | .dspCr | .basic | .rom | .vectorLow | .vectorHigh | .unmapped => s

/-- What an operation that reads memory answers: a value and the state after. -/
structure Got (α : Type) where
  val : α
  st  : State

/-- `MemRead(addr, 1)`, which is `read(addr)` (R16, R72). -/
def readByte (a : Addr) (s : State) : Got Byte := { val := peek s a, st := touch s a }

/-! ### Display output -/

/-- `host.advance_line()` (R52, reference cursor of D16). -/
def advanceLine (s : State) : State := s.callback .advanceLine 0

/-- `host.erase_previous_column()` (R52, D16): the column goes down by 1 if it is above 0. -/
def erasePreviousColumn (s : State) : State := s.callback .erasePreviousColumn (s.column - 1)

/-- `host.emit_glyph(c)` (R52, D16). -/
def emitGlyph (s : State) (c : BitVec 7) : State := s.callback (.emitGlyph c) (s.column + 1)

/-- `EmitAndWrap(c)` (R103): emit, then advance the line if the column has reached the window width. -/
def emitAndWrap (s : State) (c : BitVec 7) : State :=
  let t := emitGlyph s c
  if t.cfg.windowWidth ≤ t.column then advanceLine t else t

/-- The character handling of a display-data write: the branch table of R103. -/
def displayChar (s : State) (c : BitVec 7) : State :=
  if c = 0x0D#7 then advanceLine s
  else if c = 0x5F#7 then
    match s.cfg.underscorePolicy with
    | .erase => erasePreviousColumn s
    | .emit => emitAndWrap s c
    | .eraseThenEmit => emitAndWrap (erasePreviousColumn s) c
  else if 0x20 ≤ c.toNat ∧ c.toNat ≤ 0x5E then emitAndWrap s c
  else s

/-- The busy interval a display-data write starts: none while a key is latched (R104). -/
def busyDelay (s : State) : Nat := if s.keyboardLatch.isSome then 0 else s.cfg.displayDelay

/-- A display-data write (R103, R104): the character, then the timestamp, whatever the branch. -/
def displayWrite (s : State) (v : Byte) : State :=
  (displayChar s (v.setWidth 7)).setReady (s.clock + busyDelay s)

/-- `MemWrite(addr, 1, v)`, which is `write(addr, v)` (R16, R80): RAM is stored to, ports follow R103, R104 and R106,
everything else is rejected and reported. -/
def writeByte (s : State) (a : Addr) (v : Byte) : State :=
  match regionOf s.cfg a with
  | .ram => s.setRam (Memory.set s.ram a.toNat v)
  | .dsp => displayWrite s v
  | .kbd | .kbdCr | .dspCr => s
  | .basic | .rom | .vectorLow | .vectorHigh | .unmapped => s.report (.writeRejected a v)

/-- `MemRead16(addr)`: low byte first, the second address modulo 2^16 (R84). -/
def readWord (a : Addr) (s : State) : Got Addr :=
  let lo := readByte a s
  let hi := readByte (a + 1#16) lo.st
  { val := hiLo hi.val lo.val, st := hi.st }

/-- `Fetch8()` (R16): the byte at PC, and PC one further. -/
def fetchByte (s : State) : Got Byte :=
  let r := readByte s.pc s
  { val := r.val, st := r.st.setPC (r.st.pc + 1#16) }

/-! ### The stack (R87 to R89) -/

/-- `0x0100 + S`, the next free stack slot (R87). -/
def stackAddr (sp : Byte) : Addr := hiLo 0x01#8 sp

/-- `Push(v)` (R88). -/
def push (s : State) (v : Byte) : State :=
  let t := writeByte s (stackAddr s.sp) v
  t.setSP (t.sp - 1#8)

/-- `Pull()` (R89). -/
def pull (s : State) : Got Byte :=
  let t := s.setSP (s.sp + 1#8)
  readByte (stackAddr t.sp) t

/-- Push a 16-bit value, high byte first (R302, R304). -/
def pushWord (s : State) (w : Addr) : State := push (push s (highByte w)) (lowByte w)

/-- Pull a 16-bit value, low byte first (R303, R305). -/
def pullWord (s : State) : Got Addr :=
  let lo := pull s
  let hi := pull lo.st
  { val := hiLo hi.val lo.val, st := hi.st }

/-! ### Trap entry and return -/

/-- The address BRK reads its target from (R304). -/
def breakVector : Addr := 0xFFFE#16

/-- The trap entry (R404), which BRK alone takes: push the return address and the status byte with B set, set I,
leave D, and go to the address read from 0xFFFE and 0xFFFF. -/
def trapEntry (s : State) (ret : Addr) : State :=
  let t := push (pushWord s ret) s.p.pushed
  let t := t.setP { t.p with i := true }
  let target := readWord breakVector t
  target.st.setPC target.val

/-- The trap return (R305, R405): pull the flags, then the PC. -/
def trapReturn (s : State) : State :=
  let status := pull s
  let target := pullWord (status.st.setP (Flags.pulled status.val))
  target.st.setPC target.val

end Sys2Proof.Machine
end

