-- ==== Sys2Proof/Machine/Operands.lean ====
section
/-! DEFINITION. The addressing modes (40_addressing.md) and the accesses of the instruction classes (R186), with
their cycle counts (R182, R465; the base counts are those of the opcode table's `cycles`, which depend on class and
mode alone). PC has already passed the operand bytes (R93, R341). -/

namespace Sys2Proof.Machine

/-- What `Resolve(mode)` returns (R170): the effective address, whether the index crossed a page, and the state after
the pointer reads. -/
structure Resolved where
  ea      : Addr
  crossed : Bool
  st      : State

/-- Read the 16-bit pointer at two given addresses, low byte first (R93, D8). -/
def readPointer (lo hi : Addr) (s : State) : Got Addr :=
  let l := readByte lo s
  let h := readByte hi l.st
  { val := hiLo h.val l.val, st := h.st }

/-- The zero-page pointer at `z`, its high byte wrapping inside page 0 (R180, R181). -/
def zeroPagePointer (z : Byte) (s : State) : Got Addr :=
  readPointer (zext16 z) (zext16 (z + 1#8)) s

/-- An indexed address: the unsigned index added modulo 2^16, and the page-crossing test (R178, R179, R182, R187). -/
def indexed (base : Addr) (index : Byte) (s : State) : Resolved :=
  let ea := base + zext16 index
  { ea := ea, crossed := decide (page ea ≠ page base), st := s }

/-- `Resolve(mode)` (R173 to R175, R177 to R181). -/
def resolve (m : MemOperand) (s : State) : Resolved :=
  match m with
  | .zp b => { ea := zext16 b, crossed := false, st := s }
  | .zpX b => { ea := zext16 (b + s.x), crossed := false, st := s }
  | .zpY b => { ea := zext16 (b + s.y), crossed := false, st := s }
  | .abs w => { ea := w, crossed := false, st := s }
  | .absX w => indexed w s.x s
  | .absY w => indexed w s.y s
  | .indX b =>
    let ptr := zeroPagePointer (b + s.x) s
    { ea := ptr.val, crossed := false, st := ptr.st }
  | .indY b =>
    let base := zeroPagePointer b s
    indexed base.val base.st.y base.st

/-- The second pointer address of JMP indirect: the next byte of the same page (R183). -/
def nextInPage (ptr : Addr) : Addr := hiLo (highByte ptr) (lowByte ptr + 1#8)

/-- The target of JMP (R300, R301, R183). -/
def jumpTarget (t : JumpOperand) (s : State) : Got Addr :=
  match t with
  | .abs w => { val := w, st := s }
  | .ind ptr => readPointer ptr (nextInPage ptr) s

/-! ### Read class -/

/-- Base cycles of a read-class instruction by mode, plus the page penalty (R182). -/
def readCycles (m : Mode) (crossed : Bool) : Nat :=
  match m with
  | .immediate | .accumulator => 2
  | .zeroPage => 3
  | .zeroPageX | .zeroPageY => 4
  | .absolute | .indirect => 4
  | .absoluteX | .absoluteY => if crossed then 5 else 4
  | .indexedIndirect => 6
  | .indirectIndexed => if crossed then 6 else 5

/-- The operand M of a read-class instruction and the cycles the instruction takes. -/
structure Operand where
  value  : Byte
  cycles : Nat
  st     : State

/-- `M <- MemRead(EA, 1)` after `Resolve`, exactly once (R186). -/
def readMemOperand (m : MemOperand) (s : State) : Operand :=
  let r := resolve m s
  let v := readByte r.ea r.st
  { value := v.val, cycles := readCycles m.mode r.crossed, st := v.st }

/-- The operand M: the immediate byte (R176) or the byte at EA. -/
def readOperand (o : ReadOperand) (s : State) : Operand :=
  match o with
  | .imm b => { value := b, cycles := readCycles .immediate false, st := s }
  | .mem m => readMemOperand m s

/-! ### Write class -/

/-- Base cycles of a write-class instruction by mode; no page penalty (R182). -/
def writeCycles : Mode → Nat
  | .zeroPage => 3
  | .zeroPageX | .zeroPageY => 4
  | .absolute => 4
  | .absoluteX | .absoluteY => 5
  | .indexedIndirect | .indirectIndexed => 6
  | .immediate | .accumulator | .indirect => 0

/-- `MemWrite(EA, 1, value)` after `Resolve`, exactly once, with no read of EA (R186). -/
def store (m : MemOperand) (v : Byte) (s : State) : State :=
  let r := resolve m s
  (writeByte r.st r.ea v).addCycles (writeCycles m.mode)

/-! ### Read-modify-write class -/

/-- Base cycles of a read-modify-write instruction by mode; no page penalty (R182). -/
def modifyCycles : Mode → Nat
  | .accumulator => 2
  | .zeroPage => 5
  | .zeroPageX | .zeroPageY => 6
  | .absolute => 6
  | .absoluteX | .absoluteY => 7
  | .indexedIndirect | .indirectIndexed | .immediate | .indirect => 0

/-- `M <- MemRead(EA, 1); MemWrite(EA, 1, f M)` after `Resolve`, exactly once each (R186); answers the byte read. -/
def modifyMem (m : MemOperand) (f : Byte → Byte) (s : State) : Got Byte :=
  let r := resolve m s
  let v := readByte r.ea r.st
  { val := v.val, st := (writeByte v.st r.ea (f v.val)).addCycles (modifyCycles m.mode) }

/-- The same in accumulator mode (R172) or on memory. -/
def modifyOperand (o : ShiftOperand) (f : Byte → Byte) (s : State) : Got Byte :=
  match o with
  | .acc => { val := s.a, st := (s.setA (f s.a)).addCycles (modifyCycles .accumulator) }
  | .mem m => modifyMem m f s

end Sys2Proof.Machine
end

