-- ==== Sys2Proof/Machine/Arithmetic.lean ====
section
/-! DEFINITION. Arithmetic, compares, increments and decrements (43_arithmetic.md). -/

namespace Sys2Proof.Machine

/-- An addition or subtraction into A, with its four flags (R242, R244). -/
def accumulate (o : ReadOperand) (f : Config → Flags → Byte → Byte → Arith) (s : State) : State :=
  let m := readOperand o s
  let r := f m.st.cfg m.st.p m.st.a m.value
  ((m.st.setA r.value).setP (m.st.p.setArith r)).addCycles m.cycles

/-- ADC (R242, R243). -/
def execAdc (o : ReadOperand) (s : State) : Host.Outcome State Fault Refusal :=
  .next (accumulate o adcResult s)

/-- SBC (R244, R245). -/
def execSbc (o : ReadOperand) (s : State) : Host.Outcome State Fault Refusal :=
  .next (accumulate o sbcResult s)

/-- A compare of register value `r` with the operand: flags only (R246 to R248). -/
def compareWith (o : ReadOperand) (r : Byte) (s : State) : State :=
  let m := readOperand o s
  (m.st.setP (m.st.p.setCompare r m.value)).addCycles m.cycles

/-- CMP (R246). -/
def execCmp (o : ReadOperand) (s : State) : Host.Outcome State Fault Refusal :=
  .next (compareWith o s.a s)

/-- CPX (R247). -/
def execCpx (o : ReadOperand) (s : State) : Host.Outcome State Fault Refusal :=
  .next (compareWith o s.x s)

/-- CPY (R248). -/
def execCpy (o : ReadOperand) (s : State) : Host.Outcome State Fault Refusal :=
  .next (compareWith o s.y s)

/-- A step of memory by `f`, N and Z from the new byte (R250, R251). -/
def stepMemory (m : MemOperand) (f : Byte → Byte) (s : State) : State :=
  let r := modifyMem m f s
  r.st.setP (r.st.p.setNZ (f r.val))

/-- INC (R250): memory plus 1. -/
def execInc (m : MemOperand) (s : State) : Host.Outcome State Fault Refusal :=
  .next (stepMemory m (· + 1#8) s)

/-- DEC (R251): memory minus 1. -/
def execDec (m : MemOperand) (s : State) : Host.Outcome State Fault Refusal :=
  .next (stepMemory m (· - 1#8) s)

/-- A step of the register `set` writes to the value `v`, N and Z from it, 2 cycles (R252 to R255). -/
def stepRegister (set : State → Byte → State) (v : Byte) (s : State) : State :=
  ((set s v).setP (s.p.setNZ v)).addCycles 2

/-- INX (R252): `X <- u8(X + 1); SetNZ(X)`. -/
def execInx (s : State) : Host.Outcome State Fault Refusal :=
  .next (stepRegister State.setX (s.x + 1#8) s)

/-- INY (R253): `Y <- u8(Y + 1); SetNZ(Y)`. -/
def execIny (s : State) : Host.Outcome State Fault Refusal :=
  .next (stepRegister State.setY (s.y + 1#8) s)

/-- DEX (R254): `X <- u8(X - 1); SetNZ(X)`. -/
def execDex (s : State) : Host.Outcome State Fault Refusal :=
  .next (stepRegister State.setX (s.x - 1#8) s)

/-- DEY (R255): `Y <- u8(Y - 1); SetNZ(Y)`. -/
def execDey (s : State) : Host.Outcome State Fault Refusal :=
  .next (stepRegister State.setY (s.y - 1#8) s)

end Sys2Proof.Machine
end

