-- ==== Sys2Proof/Machine/Control.lean ====
section
/-! DEFINITION. Jumps, subroutines, BRK, RTI and branches (45_control.md). -/

namespace Sys2Proof.Machine

/-- Base cycles of JMP by mode (R300, R301). -/
def jumpCycles : JumpOperand → Nat
  | .abs _ => 3
  | .ind _ => 5

/-- JMP (R300, R301). -/
def execJmp (t : JumpOperand) (s : State) : Host.Outcome State Fault Refusal :=
  let target := jumpTarget t s
  .next ((target.st.setPC target.val).addCycles (jumpCycles t))

/-- JSR (R302): push the address of the JSR's last byte, high byte first, and jump. Both operand bytes are fetched
before either push (D27). -/
def execJsr (w : Addr) (s : State) : Host.Outcome State Fault Refusal :=
  .next (((pushWord s (s.pc - 1#16)).setPC w).addCycles 6)

/-- RTS (R303): pull the return address minus 1, and add the 1 back. -/
def execRts (s : State) : Host.Outcome State Fault Refusal :=
  let ret := pullWord s
  .next ((ret.st.setPC (ret.val + 1#16)).addCycles 6)

/-- BRK (R304): the trap entry of R404 with the return address PC + 1, skipping the padding byte. -/
def execBrk (s : State) : Host.Outcome State Fault Refusal :=
  .next ((trapEntry s (s.pc + 1#16)).addCycles 7)

/-- RTI (R305): the trap return of R405. -/
def execRti (s : State) : Host.Outcome State Fault Refusal :=
  .next ((trapReturn s).addCycles 6)

/-- The target of a branch: the displacement is signed and counts from the next instruction (R184). -/
def branchTarget (pc : Addr) (off : Byte) : Addr := pc + sext16 off

/-- The branch common rule (R306): 2 cycles, 1 more if taken, 1 more again if taken to another page. -/
def branch (taken : Bool) (off : Byte) (s : State) : State :=
  let target := branchTarget s.pc off
  if taken then (s.setPC target).addCycles (if page target = page s.pc then 3 else 4)
  else s.addCycles 2

/-- BCC (R307): branch if `C == 0`. -/
def execBcc (off : Byte) (s : State) : Host.Outcome State Fault Refusal :=
  .next (branch (!s.p.c) off s)

/-- BCS (R308): branch if `C == 1`. -/
def execBcs (off : Byte) (s : State) : Host.Outcome State Fault Refusal :=
  .next (branch s.p.c off s)

/-- BEQ (R309): branch if `Z == 1`. -/
def execBeq (off : Byte) (s : State) : Host.Outcome State Fault Refusal :=
  .next (branch s.p.z off s)

/-- BNE (R310): branch if `Z == 0`. -/
def execBne (off : Byte) (s : State) : Host.Outcome State Fault Refusal :=
  .next (branch (!s.p.z) off s)

/-- BMI (R311): branch if `N == 1`. -/
def execBmi (off : Byte) (s : State) : Host.Outcome State Fault Refusal :=
  .next (branch s.p.n off s)

/-- BPL (R312): branch if `N == 0`. -/
def execBpl (off : Byte) (s : State) : Host.Outcome State Fault Refusal :=
  .next (branch (!s.p.n) off s)

/-- BVC (R313): branch if `V == 0`. -/
def execBvc (off : Byte) (s : State) : Host.Outcome State Fault Refusal :=
  .next (branch (!s.p.v) off s)

/-- BVS (R314): branch if `V == 1`. -/
def execBvs (off : Byte) (s : State) : Host.Outcome State Fault Refusal :=
  .next (branch s.p.v off s)

end Sys2Proof.Machine
end

