-- ==== Sys2Proof/Machine/FlagMisc.lean ====
section
/-! DEFINITION. Flag instructions, NOP and undefined opcodes (46_flags_misc.md). -/

namespace Sys2Proof.Machine

/-- A flag instruction: the flags replaced, 2 cycles (R330 to R336). -/
def flagOp (p : Flags) (s : State) : State := (s.setP p).addCycles 2

/-- CLC (R330): `C <- 0`. -/
def execClc (s : State) : Host.Outcome State Fault Refusal :=
  .next (flagOp { s.p with c := false } s)

/-- SEC (R331): `C <- 1`. -/
def execSec (s : State) : Host.Outcome State Fault Refusal :=
  .next (flagOp { s.p with c := true } s)

/-- CLI (R332): `I <- 0`. -/
def execCli (s : State) : Host.Outcome State Fault Refusal :=
  .next (flagOp { s.p with i := false } s)

/-- SEI (R333): `I <- 1`. -/
def execSei (s : State) : Host.Outcome State Fault Refusal :=
  .next (flagOp { s.p with i := true } s)

/-- CLD (R334): `D <- 0`. -/
def execCld (s : State) : Host.Outcome State Fault Refusal :=
  .next (flagOp { s.p with d := false } s)

/-- SED (R335): `D <- 1`. -/
def execSed (s : State) : Host.Outcome State Fault Refusal :=
  .next (flagOp { s.p with d := true } s)

/-- CLV (R336): `V <- 0`. -/
def execClv (s : State) : Host.Outcome State Fault Refusal :=
  .next (flagOp { s.p with v := false } s)

/-- NOP (R337): nothing beyond the fetch, 2 cycles. -/
def execNop (s : State) : Host.Outcome State Fault Refusal :=
  .next (s.addCycles 2)

/-- The faulted state of `IllegalPolicy = fault`: no further CPU step (R339; log 8). -/
def enterFaulted (s : State) : State := { s with faulted := true }

/-- UNDEFINED: every opcode value of R146, a 1-cycle no-operation that reports `IllegalOpcode(pc0, op)` (R338), or under
`IllegalPolicy = fault` the same report and the faulted state (R339). The opcode's own address is PC - 1, since the
one byte has been fetched (R341). -/
def execUndefined (op : Byte) (s : State) : Host.Outcome State Fault Refusal :=
  let t := (s.report (.illegalOpcode (s.pc - 1#16) op)).addCycles 1
  match s.cfg.illegalPolicy with
  | .nopReport => .next t
  | .fault => .next (enterFaulted t)

end Sys2Proof.Machine
end

