-- ==== Sys2Proof/Machine/LoadStore.lean ====
section
/-! DEFINITION. Loads and stores (41_load_store.md). -/

namespace Sys2Proof.Machine

/-- A load: the state after the operand read, one register written by `set`, N and Z from the operand (R200 to
R202). -/
def load (o : ReadOperand) (set : State → Byte → State) (s : State) : State :=
  let m := readOperand o s
  ((set m.st m.value).setP (m.st.p.setNZ m.value)).addCycles m.cycles

/-- LDA (R200): `A <- M; SetNZ(A)`. -/
def execLda (o : ReadOperand) (s : State) : Host.Outcome State Fault Refusal :=
  .next (load o State.setA s)

/-- LDX (R201): `X <- M; SetNZ(X)`. -/
def execLdx (o : ReadOperand) (s : State) : Host.Outcome State Fault Refusal :=
  .next (load o State.setX s)

/-- LDY (R202): `Y <- M; SetNZ(Y)`. -/
def execLdy (o : ReadOperand) (s : State) : Host.Outcome State Fault Refusal :=
  .next (load o State.setY s)

/-- STA (R203): `MemWrite(EA, 1, A)`, no flags. -/
def execSta (m : MemOperand) (s : State) : Host.Outcome State Fault Refusal :=
  .next (store m s.a s)

/-- STX (R204): `MemWrite(EA, 1, X)`, no flags. -/
def execStx (m : MemOperand) (s : State) : Host.Outcome State Fault Refusal :=
  .next (store m s.x s)

/-- STY (R205): `MemWrite(EA, 1, Y)`, no flags. -/
def execSty (m : MemOperand) (s : State) : Host.Outcome State Fault Refusal :=
  .next (store m s.y s)

end Sys2Proof.Machine
end

