-- ==== Sys2Proof/Machine/LogicShift.lean ====
section
/-! DEFINITION. Logic, bit test, shifts and rotates (44_logic_shift.md). -/

namespace Sys2Proof.Machine

/-- A logical operation into A, N and Z from the result (R270 to R272). -/
def logical (o : ReadOperand) (f : Byte → Byte → Byte) (s : State) : State :=
  let m := readOperand o s
  let r := f m.st.a m.value
  ((m.st.setA r).setP (m.st.p.setNZ r)).addCycles m.cycles

/-- AND (R270): `A <- A & M; SetNZ(A)`. -/
def execAnd (o : ReadOperand) (s : State) : Host.Outcome State Fault Refusal :=
  .next (logical o (· &&& ·) s)

/-- ORA (R271): `A <- A | M; SetNZ(A)`. -/
def execOra (o : ReadOperand) (s : State) : Host.Outcome State Fault Refusal :=
  .next (logical o (· ||| ·) s)

/-- EOR (R272): `A <- A ^ M; SetNZ(A)`. -/
def execEor (o : ReadOperand) (s : State) : Host.Outcome State Fault Refusal :=
  .next (logical o (· ^^^ ·) s)

/-- BIT (R273): flags only; a real read of memory. -/
def execBit (m : MemOperand) (s : State) : Host.Outcome State Fault Refusal :=
  let r := readMemOperand m s
  .next ((r.st.setP (r.st.p.setBit r.st.a r.value)).addCycles r.cycles)

/-- A shift or rotate of the accumulator or of memory (R274 to R277). -/
def shift (o : ShiftOperand) (f : Byte → Shifted) (s : State) : State :=
  let r := modifyOperand o (fun v => (f v).value) s
  r.st.setP (r.st.p.setShift (f r.val))

/-- ASL (R274). -/
def execAsl (o : ShiftOperand) (s : State) : Host.Outcome State Fault Refusal :=
  .next (shift o aslResult s)

/-- LSR (R275). -/
def execLsr (o : ShiftOperand) (s : State) : Host.Outcome State Fault Refusal :=
  .next (shift o lsrResult s)

/-- ROL (R276): the old C is read before the new one is written. -/
def execRol (o : ShiftOperand) (s : State) : Host.Outcome State Fault Refusal :=
  .next (shift o (rolResult s.p.c) s)

/-- ROR (R277): as ROL. -/
def execRor (o : ShiftOperand) (s : State) : Host.Outcome State Fault Refusal :=
  .next (shift o (rorResult s.p.c) s)

end Sys2Proof.Machine
end

