-- ==== Sys2Proof/Machine/TransferStack.lean ====
section
/-! DEFINITION. Register transfers and stack instructions (42_transfer_stack.md). -/

namespace Sys2Proof.Machine

/-- A transfer into the register `set` writes, N and Z from the value, 2 cycles (R220 to R224). -/
def transfer (set : State → Byte → State) (v : Byte) (s : State) : State :=
  ((set s v).setP (s.p.setNZ v)).addCycles 2

/-- TAX (R220): `X <- A; SetNZ(X)`. -/
def execTax (s : State) : Host.Outcome State Fault Refusal :=
  .next (transfer State.setX s.a s)

/-- TAY (R221): `Y <- A; SetNZ(Y)`. -/
def execTay (s : State) : Host.Outcome State Fault Refusal :=
  .next (transfer State.setY s.a s)

/-- TXA (R222): `A <- X; SetNZ(A)`. -/
def execTxa (s : State) : Host.Outcome State Fault Refusal :=
  .next (transfer State.setA s.x s)

/-- TYA (R223): `A <- Y; SetNZ(A)`. -/
def execTya (s : State) : Host.Outcome State Fault Refusal :=
  .next (transfer State.setA s.y s)

/-- TSX (R224): `X <- S; SetNZ(X)`. -/
def execTsx (s : State) : Host.Outcome State Fault Refusal :=
  .next (transfer State.setX s.sp s)

/-- TXS (R225): `S <- X`; the only transfer that writes no flag. -/
def execTxs (s : State) : Host.Outcome State Fault Refusal :=
  .next ((s.setSP s.x).addCycles 2)

/-- PHA (R226): `Push(A)`. -/
def execPha (s : State) : Host.Outcome State Fault Refusal :=
  .next ((push s s.a).addCycles 3)

/-- PLA (R227): `A <- Pull(); SetNZ(A)`. -/
def execPla (s : State) : Host.Outcome State Fault Refusal :=
  let b := pull s
  .next (((b.st.setA b.val).setP (b.st.p.setNZ b.val)).addCycles 4)

/-- PLP (R228): all six stored flags from the pulled byte. -/
def execPlp (s : State) : Host.Outcome State Fault Refusal :=
  let b := pull s
  .next ((b.st.setP (Flags.pulled b.val)).addCycles 4)

/-- PHP (R229): `Push(PushP)`. -/
def execPhp (s : State) : Host.Outcome State Fault Refusal :=
  .next ((push s s.p.pushed).addCycles 3)

end Sys2Proof.Machine
end

