-- ==== Sys2Proof/Machine/Cpu.lean ====
section
/-! DEFINITION. The CPU's `step()` (R341): fetch through the decode, then the instruction's meaning; and placing an
instruction where the fetch will find it. -/

namespace Sys2Proof.Machine

/-- The opcode fetch, the opcode trace (R340), and the operand fetches (R142), each a `Fetch8` in address order: all
the bytes of the instruction are fetched before anything else happens (R93). -/
def fetchInstr (s : State) : Got Instr :=
  let op := fetchByte s
  let t := op.st.setTrace { lastPC := s.pc, lastOpcode := op.val }
  match shapeOf op.val with
  | none => { val := .undefined op.val, st := t }
  | some (.one i) => { val := i, st := t }
  | some (.two f) =>
    let b1 := fetchByte t
    { val := f b1.val, st := b1.st }
  | some (.three f) =>
    let b1 := fetchByte t
    let b2 := fetchByte b1.st
    { val := f (hiLo b2.val b1.val), st := b2.st }

/-- `step()` (R341): it requires `booted` (R458) and, under `IllegalPolicy = fault`, that the machine is not in the
faulted state (R339). No interrupt is sampled (R402). -/
def cpuStep (s : State) : Host.Outcome State Fault Refusal :=
  if s.booted = false then .fault .notBooted
  else if s.faulted = true then .fault .faultedState
  else
    let f := fetchInstr s
    exec f.val f.st

/-- A byte placed from outside the machine where a fetch from `a` will read it: RAM, or a ROM image. Elsewhere
nothing can be placed. -/
def place (s : State) (a : Addr) (v : Byte) : State :=
  match regionOf s.cfg a with
  | .ram => s.setRam (Memory.set s.ram a.toNat v)
  | .basic => { s with cfg := { s.cfg with basicImage := s.cfg.basicImage.set (a.toNat - 0xE000) v } }
  | .rom => { s with cfg := { s.cfg with romImage := s.cfg.romImage.set (a.toNat - 0xFF00) v } }
  | .kbd | .kbdCr | .dsp | .dspCr | .vectorLow | .vectorHigh | .unmapped => s

/-- Bytes placed at rising addresses. -/
def placeBytes (s : State) (a : Addr) : List Byte → State
  | [] => s
  | b :: bs => placeBytes (place s a b) (a + 1#16) bs

/-- The machine made ready for its next step to be the CPU's: booted, not faulted, the CPU first on the agenda. -/
def readyToRun (s : State) : State :=
  { s with booted := true, faulted := false, agenda := .cpu :: s.agenda }

end Sys2Proof.Machine
end

