-- ==== Sys2Proof/Machine/HostMoves.lean ====
section
/-! DEFINITION. Construction (R450), `reset()` (R455), and the moves of the host and the clock between two CPU steps
(R420 to R426). -/

namespace Sys2Proof.Machine

/-- What the spec leaves open at construction, any values: RAM, the registers, the clock and the trace (R45, R53, R56), and
the moves the agents take next, which R20 and R426 leave to the host (the list of them is the model's own, log 5). -/
structure PowerOn where
  a      : Byte
  x      : Byte
  y      : Byte
  sp     : Byte
  pc     : Addr
  p      : Flags
  ram    : Memory
  clock  : Nat
  trace  : Trace
  agenda : List Move
  deriving DecidableEq, Repr

/-- The machine at construction (R56). The values of the fields R56 does not name are the model's choice: the cursor's
(log 7), the faulted bit's (log 8) and the record of answers' (log 9); who moves first is left open in `u` (log 5). -/
def atConstruction (cfg : Config) (u : PowerOn) : State where
  cfg           := cfg
  a             := u.a
  x             := u.x
  y             := u.y
  sp            := u.sp
  pc            := u.pc
  p             := u.p
  ram           := u.ram
  keyboardLatch := none
  nextReady     := none
  clock         := u.clock
  column        := 0
  display       := []
  diag          := []
  cycles        := 0
  trace         := u.trace
  booted        := false
  faulted       := false
  agenda        := u.agenda
  replies       := []

/-- Construction (R450): a configuration that is not legal is refused and yields no machine. -/
def State.construct (cfg : Config) (u : PowerOn) : Host.Outcome State Fault Refusal :=
  if cfg.legal then .next (atConstruction cfg u) else .refused .configurationError

/-- The flags after `reset()` (R57). -/
def resetFlags : Flags :=
  { n := false, v := false, d := false, i := true, z := false, c := false }

/-- `reset()` (R455): PC from the reset vector through the decode, the registers and flags to their reset values,
nothing else. -/
def resetMove (s : State) : State :=
  let target := readWord 0xFFFC#16 s
  { target.st with
    pc := target.val, a := 0x00#8, x := 0x00#8, y := 0x00#8, sp := s.cfg.resetSP, p := resetFlags, booted := true }

/-- `set_key(c)` (R421): a new key replaces an unread one. -/
def setKeyMove (s : State) (c : Byte) : State := s.setLatch (some c)

/-- Host `read(addr)` (R422, R95): through the decode, with the side effects. -/
def readMove (s : State) (a : Addr) : State :=
  let r := readByte a s
  r.st.reply (.byte r.val)

/-- Host `write(addr, v)` (R422, R95): through the decode, with the side effects. -/
def writeMove (s : State) (a : Addr) (v : Byte) : State := writeByte s a v

/-- Bytes stored into RAM at rising addresses, without the decode. -/
def Memory.load : Memory → Nat → List Byte → Memory
  | m, _, [] => m
  | m, a, b :: bs => Memory.load (Memory.set m a b) (a + 1) bs

/-- Bytes read from RAM at rising addresses, without the decode. -/
def Memory.save (m : Memory) : Nat → Nat → List Byte
  | _, 0 => []
  | a, n + 1 => Memory.get m a :: Memory.save m (a + 1) n

/-- `bulk_load(address, bytes)` (R424): all of it or none. -/
def bulkLoadMove (s : State) (address : Nat) (bytes : List Byte) : State :=
  if s.cfg.ramSize < address + bytes.length then s.reply .rejected
  else (s.setRam (Memory.load s.ram address bytes)).reply .loaded

/-- `bulk_save(start, end)` (R425): rejected if `end` is not RAM or `start > end` (D25). -/
def bulkSaveMove (s : State) (first last : Nat) : State :=
  if s.cfg.ramSize ≤ last ∨ last < first then s.reply .rejected
  else s.reply (.saved (Memory.save s.ram first (last - first + 1)))

/-- The clock advances; it never goes back (R53, D17). -/
def advanceClockMove (s : State) (ticks : Nat) : State := { s with clock := s.clock + ticks }

/-- One move of the host or the clock (R420): atomic, between two CPU steps. -/
def hostMove (m : HostMove) (s : State) : State :=
  match m with
  | .reset => resetMove s
  | .setKey c => setKeyMove s c
  | .read a => readMove s a
  | .write a v => writeMove s a v
  | .bulkLoad address bytes => bulkLoadMove s address bytes
  | .bulkSave first last => bulkSaveMove s first last
  | .advanceClock ticks => advanceClockMove s ticks

/-- The host's diagnostic reading of P (R37, R423); the other accessors of R423 are the State fields themselves. -/
def State.diagnosticP (s : State) : Byte := s.p.diagnosticView

end Sys2Proof.Machine
end

