-- ==== Sys2Proof/Machine/Step.lean ====
section
/-! DEFINITION. One step of the machine: the next move of the agenda (R20), the CPU's if none is listed (log 5). -/

namespace Sys2Proof.Machine

/-- One atomic transition of one agent (R20). -/
def step (s : State) : Host.Outcome State Fault Refusal :=
  match s.agenda with
  | [] => cpuStep s
  | .cpu :: rest => cpuStep (s.setAgenda rest)
  | .host m :: rest => .next (hostMove m (s.setAgenda rest))

/-- The state with an instruction word, numbered as the opcode table numbers it, where the next step fetches: at PC,
with the CPU to move. It stands for the load of a program from outside the machine (log 12). -/
def State.withFetchWord (s : State) (nbits w : Nat) : State :=
  readyToRun (placeBytes s s.pc (tableBytes nbits w))

end Sys2Proof.Machine
end

