-- ==== Sys2Proof/Safety.lean ====
section
/-! DEFINITION. The terms claims use: when the machine runs, whose turn it is, and the invariant of the machine. -/

namespace Sys2Proof.Machine

/-- The machine can take a CPU step: booted (R458) and not in the faulted state (R339). -/
structure Running (s : State) : Prop where
  booted  : s.booted = true
  healthy : s.faulted = false

/-- The next step is the CPU's (R20). -/
def CpuTurn (s : State) : Prop := s.agenda.head? = none ∨ s.agenda.head? = some .cpu

/-- The state a CPU step starts from: its own entry of the agenda is used up. -/
def turnTaken (s : State) : State := s.setAgenda s.agenda.tail

/-- The invariant: a legal configuration (R11, R450), RAM in canonical form inside its range (R45), the cursor inside
the window (R52, R103), and a busy interval no longer than the display delay (R104). -/
structure Inv (s : State) : Prop where
  legal  : s.cfg.legal = true
  ramWf  : Memory.wf s.ram = true
  ramIn  : ∀ cell ∈ s.ram, cell.1 < s.cfg.ramSize
  column : s.column < s.cfg.windowWidth
  ready  : ∀ r, s.nextReady = some r → r ≤ s.clock + s.cfg.displayDelay

/-- None of the four ports decodes this address (R92): reading it has no side effect and does not depend on time. -/
def NoPort (cfg : Config) (a : Addr) : Prop := a.toNat < cfg.ramSize ∨ a ∉ cfg.ports

/-- A run of `n` steps that neither faults nor is refused. -/
def RunsFor (n : Nat) (s : State) : Prop := ∃ t, Sys2Proof.core.run n s = .next t

end Sys2Proof.Machine
end

