-- ==== Sys2Proof/Certificates/Slice0/Obligations.lean ====
section
/-! DEFINITION. The statements about the model, from the numbered rules of spec/. The helpers below are the words
they are written in: the spec's notation (00_scope.md) over the State's fields and over `peek`, `touch` and
`writeByte`, the model's read of one byte, that read's side effect, and its write of one byte. -/

namespace Sys2Proof.Claims

open Sys2Proof.Machine

/-- `SetNZ(v)` (R17). -/
def nz (p : Flags) (v : Byte) : Flags := { p with n := v.getLsbD 7, z := decide (v = 0#8) }

/-- `hi:lo` (R14), as a number. -/
def word (hi lo : Byte) : Addr := BitVec.ofNat 16 (hi.toNat * 256 + lo.toNat)

/-- `0x0100 + S` (R87). -/
def slot (sp : Byte) : Addr := BitVec.ofNat 16 (0x0100 + sp.toNat)

/-- The operand M of a read-class instruction: the immediate byte, or the byte at EA after `Resolve`. -/
def operand (o : ReadOperand) (s : State) : Byte :=
  match o with
  | .imm b => b
  | .mem m => peek (resolve m s).st (resolve m s).ea

/-- The state after the operand of a read-class instruction is read. -/
def afterRead (o : ReadOperand) (s : State) : State :=
  match o with
  | .imm _ => s
  | .mem m => touch (resolve m s).st (resolve m s).ea

/-- The page penalty of a read-class instruction (R182). -/
def penalty (o : ReadOperand) (s : State) : Nat :=
  match o with
  | .imm _ => 0
  | .mem m => if (resolve m s).crossed then 1 else 0

/-- An "Encoding" line of the spec for the operand forms of one mnemonic: mode, opcode byte, base cycles. -/
abbrev Line := List (Mode × Byte × Nat)

/-- A read-class rule: the forms of the line and no others have an encoding, and the instruction of each, executed in any
state (after its fetch: `Obligations.StepRunsTheDecodedInstruction`), answers `effect M` of the state after the operand
read, with the line's cycles and the page penalty. -/
def ReadRule (mk : ReadOperand → Instr) (line : Line) (effect : Byte → State → State) : Prop :=
  ∀ (o : ReadOperand) (s : State),
    match line.lookup o.mode with
    | none => encode (mk o) = none
    | some (op, base) =>
      encode (mk o) = some (op :: o.bytes) ∧
      exec (mk o) s =
        .next { effect (operand o s) (afterRead o s) with cycles := s.cycles + base + penalty o s }

/-- A write-class rule: one write of the register's value at EA, no flag, the line's cycles. -/
def StoreRule (mk : MemOperand → Instr) (line : Line) (value : State → Byte) : Prop :=
  ∀ (m : MemOperand) (s : State),
    match line.lookup m.mode with
    | none => encode (mk m) = none
    | some (op, base) =>
      encode (mk m) = some (op :: m.bytes) ∧
      exec (mk m) s =
        .next { writeByte (resolve m s).st (resolve m s).ea (value s) with cycles := s.cycles + base }

/-- A read-modify-write rule on memory: M is read once at EA, `f M` written once there, the flags are `flags M`. -/
def ModifyRule (mk : MemOperand → Instr) (line : Line) (f : Byte → Byte) (flags : Byte → Flags → Flags) : Prop :=
  ∀ (m : MemOperand) (s : State),
    let r := resolve m s
    let v := peek r.st r.ea
    match line.lookup m.mode with
    | none => encode (mk m) = none
    | some (op, base) =>
      encode (mk m) = some (op :: m.bytes) ∧
      exec (mk m) s =
        .next { writeByte (touch r.st r.ea) r.ea (f v) with p := flags v s.p, cycles := s.cycles + base }

/-- A shift or rotate: in accumulator mode no access to memory and 2 cycles, in memory modes one read and one write at
EA; the result `f C v`, and C the bit number `out` of the old operand. -/
def ShiftRule (mk : ShiftOperand → Instr) (accOp : Byte) (line : Line) (f : Bool → Byte → Byte) (out : Nat) : Prop :=
  ∀ (m : MemOperand) (s : State),
    let r := resolve m s
    let v := peek r.st r.ea
    encode (mk .acc) = some [accOp] ∧
    exec (mk .acc) s =
      .next { s with
        a := f s.p.c s.a, p := { nz s.p (f s.p.c s.a) with c := s.a.getLsbD out }, cycles := s.cycles + 2 } ∧
    match line.lookup m.mode with
    | none => encode (mk (.mem m)) = none
    | some (op, base) =>
      encode (mk (.mem m)) = some (op :: m.bytes) ∧
      exec (mk (.mem m)) s =
        .next { writeByte (touch r.st r.ea) r.ea (f s.p.c v) with
          p := { nz s.p (f s.p.c v) with c := v.getLsbD out }, cycles := s.cycles + base }

/-- An instruction without operand bytes: its opcode byte and what it answers. -/
def ImpliedRule (i : Instr) (op : Byte) (effect : State → State) (cycles : Nat) : Prop :=
  ∀ s : State, encode i = some [op] ∧ exec i s = .next { effect s with cycles := s.cycles + cycles }

/-- The branch common rule (R306, R184). -/
def BranchRule (mk : Byte → Instr) (op : Byte) (cond : Flags → Bool) : Prop :=
  ∀ (off : Byte) (s : State),
    let target : Addr := BitVec.ofInt 16 (s.pc.toNat + off.toInt)
    encode (mk off) = some [op, off] ∧
    exec (mk off) s = .next
      (if cond s.p then
        { s with pc := target, cycles := s.cycles + (if target.toNat / 256 = s.pc.toNat / 256 then 3 else 4) }
      else { s with cycles := s.cycles + 2 })

/-- The lines of the eight-form arithmetic and logic group, from its eight opcode bytes (R200, R242, R244, R246, R270
to R272 give all seven mnemonics the same cycles). -/
def aluLine (imm zp zpX abs absX absY indX indY : Byte) : Line :=
  [(.immediate, imm, 2), (.zeroPage, zp, 3), (.zeroPageX, zpX, 4), (.absolute, abs, 4), (.absoluteX, absX, 4),
    (.absoluteY, absY, 4), (.indexedIndirect, indX, 6), (.indirectIndexed, indY, 5)]

/-- The lines of CPX and CPY (R247, R248). -/
def shortLine (imm zp abs : Byte) : Line :=
  [(.immediate, imm, 2), (.zeroPage, zp, 3), (.absolute, abs, 4)]

/-- The memory lines of INC, DEC and the shifts (R250, R251, R274 to R277). -/
def modifyLine (zp zpX abs absX : Byte) : Line :=
  [(.zeroPage, zp, 5), (.zeroPageX, zpX, 6), (.absolute, abs, 6), (.absoluteX, absX, 7)]

/-- The value of a two-digit BCD byte. -/
def bcd (b : Byte) : Nat := b.toNat / 16 * 10 + b.toNat % 16

/-- Both nibbles are decimal digits. -/
def IsBcd (b : Byte) : Prop := b.toNat / 16 ≤ 9 ∧ b.toNat % 16 ≤ 9

/-- A carry as a number. -/
def carry (c : Bool) : Nat := if c then 1 else 0

/-- An integer outside the range of a signed byte. -/
abbrev OutOfRange (n : Int) : Prop := n < -128 ∨ 127 < n

/-- The memory operand of a shift or rotate; none in accumulator mode (R172). -/
def memoryOf : ShiftOperand → Option MemOperand
  | .acc => none
  | .mem m => some m

/-- The memory operand of an instruction of the write or read-modify-write class (R186). -/
def storedOperand : Instr → Option MemOperand
  | .sta m | .stx m | .sty m | .inc m | .dec m => some m
  | .asl o | .lsr o | .rol o | .ror o => memoryOf o
  | _ => none

/-- How many bytes an instruction pushes (R226, R229, R302, R304). -/
def pushedBytes : Instr → Nat
  | .pha | .php => 1
  | .jsr _ => 2
  | .brk => 3
  | .lda _ | .ldx _ | .ldy _ | .sta _ | .stx _ | .sty _ | .tax | .tay | .txa | .tya | .tsx | .txs | .pla => 0
  | .plp | .adc _ | .sbc _ | .cmp _ | .cpx _ | .cpy _ | .inc _ | .dec _ | .inx | .iny | .dex | .dey => 0
  | .and _ | .ora _ | .eor _ | .bit _ | .asl _ | .lsr _ | .rol _ | .ror _ | .jmp _ | .rts | .rti | .bcc _ => 0
  | .bcs _ | .beq _ | .bne _ | .bmi _ | .bpl _ | .bvc _ | .bvs _ | .clc | .sec | .cli | .sei | .cld => 0
  | .sed | .clv | .nop | .undefined _ => 0

/-- The slots `n` pushes store to (R88). -/
def pushedSlots (n : Nat) (sp : Byte) : List Addr := (List.range n).map fun k => slot (sp - BitVec.ofNat 8 k)

/-- The addresses an instruction stores to, in a given state: EA for the write and read-modify-write classes (R186),
the stack slots for pushes (R88). -/
def storedAddresses (i : Instr) (s : State) : List Addr :=
  ((storedOperand i).map fun m => (resolve m s).ea).toList ++ pushedSlots (pushedBytes i) s.sp

/-- The instructions that write A (R31). -/
def writesA : Instr → Bool
  | .lda _ | .txa | .tya | .pla | .adc _ | .sbc _ | .and _ | .ora _ | .eor _ => true
  | .asl o | .lsr o | .rol o | .ror o => decide (o = .acc)
  | _ => false

/-- The instructions that write X (R32). -/
def writesX : Instr → Bool
  | .ldx _ | .tax | .tsx | .inx | .dex => true
  | _ => false

/-- The instructions that write Y (R33). -/
def writesY : Instr → Bool
  | .ldy _ | .tay | .iny | .dey => true
  | _ => false

/-- The instructions that write S (R34). -/
def writesS : Instr → Bool
  | .txs | .pha | .php | .pla | .plp | .jsr _ | .rts | .brk | .rti => true
  | .lda _ | .ldx _ | .ldy _ | .sta _ | .stx _ | .sty _ | .tax | .tay | .txa | .tya | .tsx | .adc _ => false
  | .sbc _ | .cmp _ | .cpx _ | .cpy _ | .inc _ | .dec _ | .inx | .iny | .dex | .dey | .and _ | .ora _ => false
  | .eor _ | .bit _ | .asl _ | .lsr _ | .rol _ | .ror _ | .jmp _ | .bcc _ | .bcs _ | .beq _ | .bne _ => false
  | .bmi _ | .bpl _ | .bvc _ | .bvs _ | .clc | .sec | .cli | .sei | .cld | .sed | .clv | .nop | .undefined _ => false

/-- The instructions that write PC beyond the fetch (45_control.md). -/
def writesPC : Instr → Bool
  | .jmp _ | .jsr _ | .rts | .brk | .rti => true
  | .bcc _ | .bcs _ | .beq _ | .bne _ | .bmi _ | .bpl _ | .bvc _ | .bvs _ => true
  | .lda _ | .ldx _ | .ldy _ | .sta _ | .stx _ | .sty _ | .tax | .tay | .txa | .tya | .tsx | .txs | .pha => false
  | .pla | .plp | .php | .adc _ | .sbc _ | .cmp _ | .cpx _ | .cpy _ | .inc _ | .dec _ | .inx | .iny => false
  | .dex | .dey | .and _ | .ora _ | .eor _ | .bit _ | .asl _ | .lsr _ | .rol _ | .ror _ | .clc | .sec => false
  | .cli | .sei | .cld | .sed | .clv | .nop | .undefined _ => false

/-- The instructions that write C (R38). -/
def writesC : Instr → Bool
  | .adc _ | .sbc _ | .cmp _ | .cpx _ | .cpy _ | .asl _ | .rol _ | .lsr _ | .ror _ | .clc | .sec | .plp | .rti => true
  | _ => false

/-- The instructions that write Z (R39), the same that write N (R42). -/
def writesNZ : Instr → Bool
  | .lda _ | .ldx _ | .ldy _ | .tax | .tay | .txa | .tya | .tsx | .pla | .and _ | .ora _ | .eor _ => true
  | .adc _ | .sbc _ | .cmp _ | .cpx _ | .cpy _ | .inc _ | .dec _ | .inx | .iny | .dex | .dey => true
  | .asl _ | .lsr _ | .rol _ | .ror _ | .bit _ | .plp | .rti => true
  | _ => false

/-- The instructions that write I (R40). -/
def writesI : Instr → Bool
  | .sei | .cli | .brk | .plp | .rti => true
  | _ => false

/-- The instructions that write D (R41). -/
def writesD : Instr → Bool
  | .sed | .cld | .plp | .rti => true
  | _ => false

/-- The instructions that write V (R42). -/
def writesV : Instr → Bool
  | .adc _ | .sbc _ | .bit _ | .clv | .plp | .rti => true
  | _ => false

/-- The state an instruction of `n` bytes is executed in: its bytes fetched one after the other through the decode,
PC past them, the opcode trace set (R142, R340). -/
def afterFetch (n : Nat) (s : State) : State :=
  let t := match n with
    | 1 => (fetchByte s).st
    | 2 => (fetchByte (fetchByte s).st).st
    | _ => (fetchByte (fetchByte (fetchByte s).st).st).st
  { t with trace := { lastPC := s.pc, lastOpcode := peek s s.pc } }

/-- The three bytes `Fetch8` gives from PC on. -/
def stream (s : State) : List Byte :=
  [(fetchByte s).val, (fetchByte (fetchByte s).st).val, (fetchByte (fetchByte (fetchByte s).st).st).val]

end Sys2Proof.Claims

open Sys2Proof Sys2Proof.Machine Sys2Proof.Claims

/-! ## Encoding -/

/-- Every well-formed instruction, whatever its operand bytes, decodes from its encoding, and no byte after it is
consumed (R140, R141, R145, R148). -/
def Obligations.DecodeEncodeAgree : Prop :=
  ∀ (i : Instr) (rest : List Byte), i.wf = true →
    ∃ bs, encode i = some bs ∧ decode (bs ++ rest) = .ok (i, rest)

/-- R147: every byte value decodes, to an instruction whose encoding is exactly the bytes consumed, and it is an
undefined opcode exactly for the 105 values of R146. -/
def Obligations.EveryByteValueDecodes : Prop :=
  undefinedOpcodes.Nodup ∧ undefinedOpcodes.length = 105 ∧
  ∀ (op b1 b2 : Byte) (rest : List Byte), ∃ i rest' bs,
    decode (op :: b1 :: b2 :: rest) = .ok (i, rest') ∧ i.wf = true ∧ encode i = some bs ∧
    bs ++ rest' = op :: b1 :: b2 :: rest ∧ (i = .undefined op ↔ op ∈ undefinedOpcodes)

/-- The decoder rejects the empty list and a list that ends inside its instruction, each by name, and nothing else. -/
def Obligations.DecodeRejectsOnlyTruncation : Prop :=
  ∀ (bs : List Byte) (e : DecodeError), decode bs = .error e ↔
    (bs = [] ∧ e = .noBytes) ∨
    ∃ op rest, bs = op :: rest ∧ rest.length + 1 < instrLength op ∧ e = .truncated op

/-- The example bytes of R161 decode to the instructions they stand for, one for each addressing mode. -/
def Obligations.SampleWordsDecode : Prop :=
  decode [0xE8#8] = .ok (.inx, []) ∧
  decode [0x0A#8] = .ok (.asl .acc, []) ∧
  decode [0xA9#8, 0x05#8] = .ok (.lda (.imm 0x05#8), []) ∧
  decode [0xA5#8, 0x10#8] = .ok (.lda (.mem (.zp 0x10#8)), []) ∧
  decode [0xB5#8, 0x10#8] = .ok (.lda (.mem (.zpX 0x10#8)), []) ∧
  decode [0xB6#8, 0x10#8] = .ok (.ldx (.mem (.zpY 0x10#8)), []) ∧
  decode [0xAD#8, 0x34#8, 0x12#8] = .ok (.lda (.mem (.abs 0x1234#16)), []) ∧
  decode [0xBD#8, 0x34#8, 0x12#8] = .ok (.lda (.mem (.absX 0x1234#16)), []) ∧
  decode [0xB9#8, 0x34#8, 0x12#8] = .ok (.lda (.mem (.absY 0x1234#16)), []) ∧
  decode [0x6C#8, 0x34#8, 0x12#8] = .ok (.jmp (.ind 0x1234#16), []) ∧
  decode [0xA1#8, 0x10#8] = .ok (.lda (.mem (.indX 0x10#8)), []) ∧
  decode [0xB1#8, 0x10#8] = .ok (.lda (.mem (.indY 0x10#8)), []) ∧
  decode [0xD0#8, 0xF7#8] = .ok (.bne 0xF7#8, [])

/-! ## The step -/

/-- When the bytes `Fetch8` gives from PC decode to `i`, a CPU step is `exec i` after the fetch of exactly `i`'s bytes:
PC past them, each fetch with its read side effect, the trace set (R142, R340, R341). -/
def Obligations.StepRunsTheDecodedInstruction : Prop :=
  ∀ (s : State) (i : Instr) (rest : List Byte), Running s → CpuTurn s →
    decode (stream (turnTaken s)) = .ok (i, rest) →
    step s = exec i (afterFetch (3 - rest.length) (turnTaken s))

/-- A fetch from addresses that are no ports has no side effect: the bytes executed are those memory holds at PC,
PC + 1 and PC + 2 (R70, R92, R94, R142). -/
def Obligations.FetchReadsMemoryAtPc : Prop :=
  ∀ s : State, NoPort s.cfg s.pc → NoPort s.cfg (s.pc + 1#16) → NoPort s.cfg (s.pc + 2#16) →
    stream s = [peek s s.pc, peek s (s.pc + 1#16), peek s (s.pc + 2#16)] ∧
    ∀ n, 1 ≤ n → n ≤ 3 → afterFetch n s =
      { s with pc := s.pc + BitVec.ofNat 16 n, trace := { lastPC := s.pc, lastOpcode := peek s s.pc } }

/-- A step stops in exactly two ways, both before the fetch: a CPU step before the first reset (R458), and a CPU step
in the faulted state of R339; it is never refused, and every other step ends in a next state (R343). That the two are
faults of the model is its choice (logs 8 and 10). -/
def Obligations.StepStopsOnlyBeforeResetOrAfterFault : Prop :=
  ∀ s : State,
    (step s = .fault .notBooted ↔ CpuTurn s ∧ s.booted = false) ∧
    (step s = .fault .faultedState ↔ CpuTurn s ∧ s.booted = true ∧ s.faulted = true) ∧
    (∀ r, step s ≠ .refused r) ∧
    (Running s ∨ ¬ CpuTurn s → ∃ t, step s = .next t)

/-- Under `nop_report` a booted machine never stops, whatever its memory holds and whatever the host does: every run
of every length ends in a next state, still booted and not faulted (R343, R401). -/
def Obligations.RunsNeverStop : Prop :=
  ∀ (n : Nat) (s : State), Running s → s.cfg.illegalPolicy = .nopReport →
    ∃ t, Sys2Proof.core.run n s = .next t ∧ Running t

/-- The invariant of the machine is kept by every step of every agent. Its canonical form of RAM is the model's own (log 3),
its cursor the reference cursor the model chose (log 7). -/
def Obligations.StepKeepsInvariant : Prop :=
  ∀ s t : State, Inv s → step s = .next t → Inv t

/-- The reset state meets the invariant, and it is `reset()` applied to a construction of the default configuration
(the values it holds where R57 gives none are the model's choice: log 2, log 3, log 4). -/
def Obligations.ResetMeetsInvariant : Prop :=
  Inv State.reset ∧
  ∃ u s, State.construct Config.default u = .next s ∧ u.ram = [] ∧ resetMove s = State.reset

/-- R54: no step of any agent changes a parameter. -/
def Obligations.ParametersNeverChange : Prop :=
  ∀ s t : State, step s = .next t → t.cfg = s.cfg

/-- The diagnostic log and the display trace only grow, at their ends (R50, R51). -/
def Obligations.LogsOnlyGrow : Prop :=
  ∀ s t : State, step s = .next t → s.diag <+: t.diag ∧ s.display <+: t.display

/-- A CPU step leaves the clock, the boot bit and the host's answers alone, uses up its own entry of the agenda, and
never sets the keyboard latch (R108, R342). The agenda and the record of answers are the model's own (logs 5, 9). -/
def Obligations.CpuStepLeavesHostAlone : Prop :=
  ∀ s t : State, CpuTurn s → step s = .next t →
    t.clock = s.clock ∧ t.booted = s.booted ∧ t.replies = s.replies ∧ t.agenda = s.agenda.tail ∧
    (t.keyboardLatch = s.keyboardLatch ∨ t.keyboardLatch = none)

/-- A CPU step takes 1 to 7 cycles; a move of the host or the clock takes none (R47, R465). -/
def Obligations.CyclesOfAStep : Prop :=
  ∀ s t : State, step s = .next t →
    (CpuTurn s → s.cycles + 1 ≤ t.cycles ∧ t.cycles ≤ s.cycles + 7) ∧ (¬ CpuTurn s → t.cycles = s.cycles)

/-! ## Frames of every instruction -/

/-- A register changes only by an instruction the spec names as its writer (R31 to R35). -/
def Obligations.RegistersChangeOnlyByTheirWriters : Prop :=
  ∀ (i : Instr) (s : State), ∃ t, exec i s = .next t ∧
    (writesA i = false → t.a = s.a) ∧ (writesX i = false → t.x = s.x) ∧ (writesY i = false → t.y = s.y) ∧
    (writesS i = false → t.sp = s.sp) ∧ (writesPC i = false → t.pc = s.pc)

/-- A flag changes only by an instruction the spec names as its writer (R38 to R42). -/
def Obligations.FlagsChangeOnlyByTheirWriters : Prop :=
  ∀ (i : Instr) (s : State), ∃ t, exec i s = .next t ∧
    (writesNZ i = false → t.p.n = s.p.n ∧ t.p.z = s.p.z) ∧ (writesV i = false → t.p.v = s.p.v) ∧
    (writesD i = false → t.p.d = s.p.d) ∧ (writesI i = false → t.p.i = s.p.i) ∧
    (writesC i = false → t.p.c = s.p.c)

/-- Every byte of memory is unchanged but those the instruction stores to, at the addresses its meaning computes; every
address, for a form that stores nothing (R93, R186). -/
def Obligations.MemoryChangesOnlyWhereStored : Prop :=
  ∀ (i : Instr) (s : State), Memory.wf s.ram = true → ∃ t, exec i s = .next t ∧
    ∀ a : Addr, NoPort s.cfg a → a ∉ storedAddresses i s → peek t a = peek s a

/-- An instruction that stores to none but RAM addresses leaves the display, its timestamp, the cursor and, unless it
is an undefined opcode, the diagnostic log alone; no instruction touches the trace, the clock, the boot bit, the agenda
or the host's answers, and only an undefined opcode enters the faulted state (R50, R92, R339). -/
def Obligations.DevicesChangeOnlyWhereStored : Prop :=
  ∀ (i : Instr) (s : State), ∃ t, exec i s = .next t ∧
    (t.cfg = s.cfg ∧ t.trace = s.trace ∧ t.clock = s.clock ∧ t.booted = s.booted ∧ t.agenda = s.agenda ∧
      t.replies = s.replies) ∧
    (t.keyboardLatch = s.keyboardLatch ∨ t.keyboardLatch = none) ∧
    ((∀ op, i ≠ .undefined op) → t.faulted = s.faulted) ∧
    ((∀ a ∈ storedAddresses i s, a.toNat < s.cfg.ramSize) →
      t.display = s.display ∧ t.nextReady = s.nextReady ∧ t.column = s.column ∧
      ((∀ op, i ≠ .undefined op) → t.diag = s.diag))

/-! ## Memory, ports and stack -/

/-- In a legal configuration each range of the memory map reads as its row of R71 says. -/
def Obligations.ReadFollowsTheMemoryMap : Prop :=
  ∀ (s : State) (a : Addr), s.cfg.legal = true →
    (a.toNat < s.cfg.ramSize → peek s a = Memory.get s.ram a.toNat) ∧
    (a = s.cfg.portKbd →
      peek s a = match s.keyboardLatch with | some c => 0x80#8 ||| c | none => 0x00#8) ∧
    (a = s.cfg.portKbdCr → peek s a = if s.keyboardLatch = none then 0x00#8 else 0x80#8) ∧
    (a = s.cfg.portDsp → peek s a = 0x00#8) ∧
    (a = s.cfg.portDspCr →
      peek s a = match s.nextReady with | none => 0x00#8 | some r => if s.clock > r then 0x00#8 else 0x80#8) ∧
    (0xE000 ≤ a.toNat → a.toNat ≤ 0xEFFF → s.cfg.basicImage[a.toNat - 0xE000]? = some (peek s a)) ∧
    (0xFF00 ≤ a.toNat → a.toNat ≤ 0xFFFB → s.cfg.romImage[a.toNat - 0xFF00]? = some (peek s a)) ∧
    (a = 0xFFFC#16 → (peek s a).toNat = s.cfg.resetAddress.toNat % 256) ∧
    (a = 0xFFFD#16 → (peek s a).toNat = s.cfg.resetAddress.toNat / 256) ∧
    (s.cfg.ramSize ≤ a.toNat → a ∉ s.cfg.ports → ¬ (0xE000 ≤ a.toNat ∧ a.toNat ≤ 0xEFFF) →
      ¬ (0xFF00 ≤ a.toNat ∧ a.toNat ≤ 0xFFFD) → peek s a = 0x00#8)

/-- In a legal configuration only a keyboard-data read has a side effect: every other read, of RAM, ROM, vector,
unmapped space or another port, changes nothing (R73, R74, R75, R92). -/
def Obligations.OnlyKeyboardDataReadsHaveEffects : Prop :=
  ∀ (s : State) (a : Addr), s.cfg.legal = true →
    touch s a = if a = s.cfg.portKbd then { s with keyboardLatch := none } else s

/-- R80, R81: in a legal configuration a write outside RAM and the ports changes nothing but the log, which gets
`WriteRejected`; so do writes to 0xFFFC and 0xFFFD. -/
def Obligations.RejectedWritesAreOnlyReported : Prop :=
  ∀ (s : State) (a : Addr) (v : Byte), s.cfg.legal = true →
    (s.cfg.ramSize ≤ a.toNat ∧ a ∉ s.cfg.ports) ∨ a = 0xFFFC#16 ∨ a = 0xFFFD#16 →
    writeByte s a v = { s with diag := s.diag ++ [.writeRejected a v] }

/-- R82: a byte written to RAM is read back; outside RAM and the ports a write changes what no address there reads. -/
def Obligations.RamReadsBackWhatWasWritten : Prop :=
  ∀ (s : State) (a : Addr) (v : Byte), Memory.wf s.ram = true →
    (a.toNat < s.cfg.ramSize → peek (writeByte s a v) a = v ∧
      ∀ b : Addr, b ≠ a → peek (writeByte s a v) b = peek s b) ∧
    (s.cfg.ramSize ≤ a.toNat → a ∉ s.cfg.ports → peek (writeByte s a v) a = peek s a)

/-- R101, R102: a keyboard-data read gives the latched character with bit 7 set and clears the latch, so that the next
one gives 0x00; a keyboard-control read gives the latch's state and changes nothing. -/
def Obligations.KeyboardPortsFollowTheLatch : Prop :=
  ∀ s : State, s.cfg.legal = true →
    let d := s.cfg.portKbd
    let k := s.cfg.portKbdCr
    (∀ c, s.keyboardLatch = some c →
      peek s d = 0x80#8 ||| c ∧ peek s k = 0x80#8 ∧ touch s d = { s with keyboardLatch := none } ∧
      peek (touch s d) d = 0x00#8) ∧
    (s.keyboardLatch = none → peek s d = 0x00#8 ∧ peek s k = 0x00#8 ∧ touch s d = s) ∧ touch s k = s

/-- R108: the keyboard latch is set by the host's `set_key` alone: whatever step changes it either clears it or is that
move, with the character the host gave (the agenda that lists the host's moves: log 5). -/
def Obligations.KeyboardLatchIsSetOnlyByTheHost : Prop :=
  ∀ s t : State, step s = .next t → t.keyboardLatch = s.keyboardLatch ∨ t.keyboardLatch = none ∨
    ∃ c rest, s.agenda = .host (.setKey c) :: rest ∧ t.keyboardLatch = some c

/-- A display-data write, in a legal configuration, does what the branch table of R103 says to the display and the cursor,
and whatever the branch sets the timestamp from the clock, with no delay while a key is latched (R104). That the cursor
is the reference cursor of R52 is the model's choice (log 7). -/
def Obligations.DisplayDataWriteFollowsTheTable : Prop :=
  ∀ (s : State) (v : Byte), s.cfg.legal = true →
    let c : BitVec 7 := BitVec.ofNat 7 (v.toNat % 128)
    let emitted (l : List DisplayEvent) (k : Nat) : List DisplayEvent × Nat :=
      if s.cfg.windowWidth ≤ k + 1 then (l ++ [.emitGlyph c, .advanceLine], 0) else (l ++ [.emitGlyph c], k + 1)
    let out : List DisplayEvent × Nat :=
      if v.toNat % 128 = 0x0D then (s.display ++ [.advanceLine], 0)
      else if v.toNat % 128 = 0x5F then
        match s.cfg.underscorePolicy with
        | .erase => (s.display ++ [.erasePreviousColumn], s.column - 1)
        | .emit => emitted s.display s.column
        | .eraseThenEmit => emitted (s.display ++ [.erasePreviousColumn]) (s.column - 1)
      else if 0x20 ≤ v.toNat % 128 ∧ v.toNat % 128 ≤ 0x5E then emitted s.display s.column
      else (s.display, s.column)
    writeByte s s.cfg.portDsp v =
      { s with
        display := out.1
        column := out.2
        nextReady := some (s.clock + if s.keyboardLatch = none then s.cfg.displayDelay else 0) }

/-- R104, R105: in a legal configuration every display-data write, whatever its value, sets the timestamp to the clock plus
the delay, or plus 0 while a key is latched, and a write to another port does not. Display-control reads ready (0x00)
before any display write, and otherwise busy (0x80) exactly until the clock has passed the timestamp; the read changes
nothing. -/
def Obligations.DisplayIsBusyUntilTheDelayHasPassed : Prop :=
  ∀ (s : State) (v : Byte) (now : Nat), s.cfg.legal = true → s.clock ≤ now →
    let t := writeByte s s.cfg.portDsp v
    let delay := if s.keyboardLatch = none then s.cfg.displayDelay else 0
    (s.nextReady = none → peek s s.cfg.portDspCr = 0x00#8) ∧
    (∀ r, s.nextReady = some r → peek s s.cfg.portDspCr = if s.clock > r then 0x00#8 else 0x80#8) ∧
    touch s s.cfg.portDspCr = s ∧
    t.nextReady = some (s.clock + delay) ∧
    (∀ a ∈ [s.cfg.portKbd, s.cfg.portKbdCr, s.cfg.portDspCr], (writeByte s a v).nextReady = s.nextReady) ∧
    peek { t with clock := now } s.cfg.portDspCr = if now > s.clock + delay then 0x00#8 else 0x80#8

/-- R106, R107: in a legal configuration a write to keyboard-data, keyboard-control or display-control changes nothing and
reports nothing, and a read of display-data gives 0x00 and changes nothing; no access to any port reports an event. -/
def Obligations.InertPortAccesses : Prop :=
  ∀ (s : State) (v : Byte), s.cfg.legal = true →
    writeByte s s.cfg.portKbd v = s ∧ writeByte s s.cfg.portKbdCr v = s ∧ writeByte s s.cfg.portDspCr v = s ∧
    peek s s.cfg.portDsp = 0x00#8 ∧ touch s s.cfg.portDsp = s ∧
    ∀ a ∈ s.cfg.ports, (touch s a).diag = s.diag ∧ (writeByte s a v).diag = s.diag

/-- R84: a 16-bit read takes its low byte first and its high byte from the next address, modulo 2^16. -/
def Obligations.WordReadsAreLittleEndian : Prop :=
  ∀ (s : State) (a : Addr),
    let b : Addr := BitVec.ofNat 16 ((a.toNat + 1) % 65536)
    (readWord a s).val.toNat = (peek (touch s a) b).toNat * 256 + (peek s a).toNat ∧
    (readWord a s).st = touch (touch s a) b

/-- In a legal configuration 0xFFFC and 0xFFFD read as the configured reset address, whatever RAM holds (R74, R457). -/
def Obligations.ResetVectorIsTheResetAddress : Prop :=
  ∀ s : State, s.cfg.legal = true →
    readWord 0xFFFC#16 s = { val := s.cfg.resetAddress, st := s } ∧ (resetMove s).pc = s.cfg.resetAddress

/-- R88, R89: a push writes the byte at 0x0100 + S and then lowers S; a pull raises S and then reads at 0x0100 + S; S
wraps modulo 2^8. -/
def Obligations.PushAndPull : Prop :=
  ∀ (s : State) (v : Byte),
    push s v = { writeByte s (slot s.sp) v with sp := BitVec.ofNat 8 (s.sp.toNat + 255) } ∧
    (let up : Byte := BitVec.ofNat 8 (s.sp.toNat + 1)
     pull s = { val := peek s (slot up), st := { touch s (slot up) with sp := up } })

/-! ## Construction, reset and the host -/

/-- With a window width R10 allows, construction yields a machine exactly when every condition of R450 holds, R11's among
them, in the state of R56 (no key, no timestamp, no cycles, empty logs, not booted), and is refused otherwise. That the
cursor starts at column 0, as the reference cursor of R52 does, is the model's choice (log 7). -/
def Obligations.ConstructionRequiresLegalParameters : Prop :=
  ∀ (cfg : Config) (u : PowerOn), 1 ≤ cfg.windowWidth →
    (cfg.legal = true ↔
      cfg.ramSize ≤ 0xD00F ∧ cfg.romImage.length = 252 ∧ cfg.basicImage.length = 4096 ∧ cfg.ports.Nodup ∧
      ∀ a ∈ cfg.ports, cfg.ramSize ≤ a.toNat ∧ ¬ (0xE000 ≤ a.toNat ∧ a.toNat ≤ 0xEFFF) ∧ a.toNat < 0xFF00) ∧
    (cfg.legal = false → State.construct cfg u = .refused .configurationError) ∧
    (cfg.legal = true → ∃ s, State.construct cfg u = .next s ∧ s.cfg = cfg ∧ s.keyboardLatch = none ∧
      s.nextReady = none ∧ s.cycles = 0 ∧ s.diag = [] ∧ s.display = [] ∧ s.column = 0 ∧ s.booted = false)

/-- R455, R57: in a legal configuration `reset()` sets the registers and flags to their reset values and the PC to the
reset address, and changes nothing else. -/
def Obligations.ResetSetsTheRegisters : Prop :=
  ∀ s : State, s.cfg.legal = true →
    resetMove s =
      { s with
        pc := s.cfg.resetAddress, a := 0x00#8, x := 0x00#8, y := 0x00#8, sp := s.cfg.resetSP
        p := { n := false, v := false, d := false, i := true, z := false, c := false }
        booted := true }

/-- R456: in a legal configuration two resets in a row leave the state one leaves, and that state does not depend on what
the registers, the flags and the boot bit were before. -/
def Obligations.ResetIsIdempotent : Prop :=
  ∀ (s : State) (a x y sp : Byte) (pc : Addr) (p : Flags) (booted : Bool), s.cfg.legal = true →
    resetMove (resetMove s) = resetMove s ∧
    resetMove { s with a := a, x := x, y := y, sp := sp, pc := pc, p := p, booted := booted } = resetMove s

/-- A host move is one step: a key replaces whatever the latch held (R421), a host read answers the decoded byte with its
side effect, a host write is the decoded write (R422), and the clock only goes forward (R53). The agenda, the record of
answers and the clock's ticks are the model's choice (logs 5, 6, 9). -/
def Obligations.HostMovesAreSteps : Prop :=
  ∀ (s : State) (rest : List Move) (c v : Byte) (a : Addr) (ticks : Nat),
    let at' (m : HostMove) : State := { s with agenda := .host m :: rest }
    let s' : State := { s with agenda := rest }
    step (at' (.setKey c)) = .next { s' with keyboardLatch := some c } ∧
    step (at' (.read a)) = .next { touch s' a with replies := s.replies ++ [.byte (peek s a)] } ∧
    step (at' (.write a v)) = .next (writeByte s' a v) ∧
    step (at' .reset) = .next (resetMove s') ∧
    step (at' (.advanceClock ticks)) = .next { s' with clock := s.clock + ticks }

/-- A bulk load past the end of RAM writes nothing; any other writes each byte at its address and no other byte (R424). That
the report of a rejection is a reply and no diagnostic event is the model's choice (log 9). -/
def Obligations.BulkLoadIsAllOrNothing : Prop :=
  ∀ (s : State) (address : Nat) (bytes : List Byte), Memory.wf s.ram = true →
    (s.cfg.ramSize < address + bytes.length →
      bulkLoadMove s address bytes = { s with replies := s.replies ++ [.rejected] }) ∧
    (address + bytes.length ≤ s.cfg.ramSize → ∃ ram,
      bulkLoadMove s address bytes = { s with ram := ram, replies := s.replies ++ [.loaded] } ∧
      (∀ k b, bytes[k]? = some b → Memory.get ram (address + k) = b) ∧
      ∀ b, (b < address ∨ address + bytes.length ≤ b) → Memory.get ram b = Memory.get s.ram b)

/-- A bulk save past the end of RAM, or with start above end, is rejected; any other answers the bytes from start to end;
and loading them back where they came from leaves RAM as it was (R425). The record of answers is the model's choice
(log 9). -/
def Obligations.BulkSaveAnswersRam : Prop :=
  ∀ (s : State) (first last : Nat), Memory.wf s.ram = true →
    (s.cfg.ramSize ≤ last ∨ last < first →
      bulkSaveMove s first last = { s with replies := s.replies ++ [.rejected] }) ∧
    (last < s.cfg.ramSize → first ≤ last → ∃ bytes,
      bulkSaveMove s first last = { s with replies := s.replies ++ [.saved bytes] } ∧
      bytes.length = last - first + 1 ∧
      (∀ k, k ≤ last - first → bytes[k]? = some (Memory.get s.ram (first + k))) ∧
      bulkLoadMove s first bytes = { s with replies := s.replies ++ [.loaded] })

/-! ## Addressing modes -/

/-- The effective addresses of R173 to R175 and R177 to R179 as numbers, zero-page sums modulo 2^8 and the others modulo
2^16, and the page-crossing test; no access is made. -/
def Obligations.DirectModesComputeTheirAddress : Prop :=
  ∀ (s : State) (b : Byte) (w : Addr),
    ((resolve (.zp b) s).ea.toNat = b.toNat) ∧
    ((resolve (.zpX b) s).ea.toNat = (b.toNat + s.x.toNat) % 256) ∧
    ((resolve (.zpY b) s).ea.toNat = (b.toNat + s.y.toNat) % 256) ∧
    ((resolve (.abs w) s).ea = w) ∧
    ((resolve (.absX w) s).ea.toNat = (w.toNat + s.x.toNat) % 65536) ∧
    ((resolve (.absY w) s).ea.toNat = (w.toNat + s.y.toNat) % 65536) ∧
    (∀ m ∈ [MemOperand.zp b, .zpX b, .zpY b, .abs w], (resolve m s).crossed = false ∧ (resolve m s).st = s) ∧
    (∀ m ∈ [MemOperand.absX w, .absY w], (resolve m s).st = s ∧
      ((resolve m s).crossed = true ↔ (resolve m s).ea.toNat / 256 ≠ w.toNat / 256))

/-- R180, R181: the pointer modes read the pointer low byte first from page 0, both bytes wrapping inside page 0, and
make no other access. -/
def Obligations.PointerModesReadTheirPointer : Prop :=
  ∀ (s : State) (b : Byte),
    (let z : Addr := BitVec.ofNat 16 ((b.toNat + s.x.toNat) % 256)
     let z' : Addr := BitVec.ofNat 16 ((b.toNat + s.x.toNat + 1) % 256)
     resolve (.indX b) s =
       { ea := word (peek (touch s z) z') (peek s z), crossed := false, st := touch (touch s z) z' }) ∧
    (let z : Addr := BitVec.ofNat 16 b.toNat
     let z' : Addr := BitVec.ofNat 16 ((b.toNat + 1) % 256)
     let base := word (peek (touch s z) z') (peek s z)
     let ea : Addr := BitVec.ofNat 16 (base.toNat + s.y.toNat)
     resolve (.indY b) s =
       { ea := ea, crossed := decide (ea.toNat / 256 ≠ base.toNat / 256), st := touch (touch s z) z' })

/-! ## Loads, stores, transfers and stack -/

/-- R200, R201, R202: LDA, LDX and LDY. -/
def Obligations.LoadsFollowTheirRules : Prop :=
  ReadRule .lda (aluLine 0xA9#8 0xA5#8 0xB5#8 0xAD#8 0xBD#8 0xB9#8 0xA1#8 0xB1#8)
    (fun m t => { t with a := m, p := nz t.p m }) ∧
  ReadRule .ldx [(.immediate, 0xA2#8, 2), (.zeroPage, 0xA6#8, 3), (.zeroPageY, 0xB6#8, 4), (.absolute, 0xAE#8, 4),
      (.absoluteY, 0xBE#8, 4)]
    (fun m t => { t with x := m, p := nz t.p m }) ∧
  ReadRule .ldy [(.immediate, 0xA0#8, 2), (.zeroPage, 0xA4#8, 3), (.zeroPageX, 0xB4#8, 4), (.absolute, 0xAC#8, 4),
      (.absoluteX, 0xBC#8, 4)]
    (fun m t => { t with y := m, p := nz t.p m })

/-- R203, R204, R205: STA, STX and STY. -/
def Obligations.StoresFollowTheirRules : Prop :=
  StoreRule .sta [(.zeroPage, 0x85#8, 3), (.zeroPageX, 0x95#8, 4), (.absolute, 0x8D#8, 4), (.absoluteX, 0x9D#8, 5),
      (.absoluteY, 0x99#8, 5), (.indexedIndirect, 0x81#8, 6), (.indirectIndexed, 0x91#8, 6)]
    (fun s => s.a) ∧
  StoreRule .stx [(.zeroPage, 0x86#8, 3), (.zeroPageY, 0x96#8, 4), (.absolute, 0x8E#8, 4)] (fun s => s.x) ∧
  StoreRule .sty [(.zeroPage, 0x84#8, 3), (.zeroPageX, 0x94#8, 4), (.absolute, 0x8C#8, 4)] (fun s => s.y)

/-- R220 to R225: TAX, TAY, TXA, TYA, TSX and TXS. -/
def Obligations.TransfersFollowTheirRules : Prop :=
  ImpliedRule .tax 0xAA#8 (fun s => { s with x := s.a, p := nz s.p s.a }) 2 ∧
  ImpliedRule .tay 0xA8#8 (fun s => { s with y := s.a, p := nz s.p s.a }) 2 ∧
  ImpliedRule .txa 0x8A#8 (fun s => { s with a := s.x, p := nz s.p s.x }) 2 ∧
  ImpliedRule .tya 0x98#8 (fun s => { s with a := s.y, p := nz s.p s.y }) 2 ∧
  ImpliedRule .tsx 0xBA#8 (fun s => { s with x := s.sp, p := nz s.p s.sp }) 2 ∧
  ImpliedRule .txs 0x9A#8 (fun s => { s with sp := s.x }) 2

/-- R226 to R229 with R37: PHA, PLA, PLP and PHP; the pushed status byte has bits 5 and 4 set, a pulled one's are
discarded. -/
def Obligations.StackInstructionsFollowTheirRules : Prop :=
  let status (p : Flags) : Byte := BitVec.ofNat 8 (carry p.n * 128 + carry p.v * 64 + 0x20 + 0x10 +
    carry p.d * 8 + carry p.i * 4 + carry p.z * 2 + carry p.c)
  ImpliedRule .pha 0x48#8 (fun s => { writeByte s (slot s.sp) s.a with sp := s.sp - 1#8 }) 3 ∧
  ImpliedRule .php 0x08#8 (fun s => { writeByte s (slot s.sp) (status s.p) with sp := s.sp - 1#8 }) 3 ∧
  ImpliedRule .pla 0x68#8 (fun s =>
    let b := peek s (slot (s.sp + 1#8))
    { touch s (slot (s.sp + 1#8)) with sp := s.sp + 1#8, a := b, p := nz s.p b }) 4 ∧
  ImpliedRule .plp 0x28#8 (fun s =>
    let b := peek s (slot (s.sp + 1#8))
    { touch s (slot (s.sp + 1#8)) with
      sp := s.sp + 1#8
      p := { n := b.getLsbD 7, v := b.getLsbD 6, d := b.getLsbD 3, i := b.getLsbD 2, z := b.getLsbD 1,
             c := b.getLsbD 0 } }) 4

/-! ## Arithmetic -/

/-- R241, R242, R243: ADC. Binary over exact integers, V exactly when the signed sum leaves -128..127; decimal, when
D = 1 and `DecimalMode = nmos`, step by step as the algorithm of R243, for every operand, BCD or not. -/
def Obligations.AdcFollowsItsRules : Prop :=
  let binary (m : Byte) (t : State) : State :=
    let sum := t.a.toNat + m.toNat + carry t.p.c
    let r : Byte := BitVec.ofNat 8 sum
    { t with
      a := r
      p := { nz t.p r with
        c := decide (255 < sum), v := decide (OutOfRange (t.a.toInt + m.toInt + carry t.p.c)) } }
  let signed (b : Byte) : Int := (b.toNat / 16 * 16 : Nat) - (if 128 ≤ b.toNat then 256 else 0)
  let decimal (m : Byte) (t : State) : State :=
    let low := t.a.toNat % 16 + m.toNat % 16 + carry t.p.c
    let al := if 10 ≤ low then (low + 6) % 16 + 16 else low
    let i : Int := signed t.a + signed m + al
    let r := t.a.toNat / 16 * 16 + m.toNat / 16 * 16 + al
    let r := if 0xA0 ≤ r then r + 0x60 else r
    { t with
      a := BitVec.ofNat 8 r
      p := { t.p with
        n := decide (128 ≤ i % 256), v := decide (OutOfRange i)
        z := decide ((t.a.toNat + m.toNat + carry t.p.c) % 256 = 0), c := decide (256 ≤ r) } }
  ReadRule .adc (aluLine 0x69#8 0x65#8 0x75#8 0x6D#8 0x7D#8 0x79#8 0x61#8 0x71#8)
    (fun m t => if t.p.d = true ∧ t.cfg.decimalMode = .nmos then decimal m t else binary m t)

/-- R244, R245: SBC. The flags are those of the binary difference in both modes, C meaning "no borrow"; the value is the
binary difference, or when D = 1 and `DecimalMode = nmos` that of the algorithm of R245, for every operand. -/
def Obligations.SbcFollowsItsRules : Prop :=
  let value (m : Byte) (t : State) : Byte :=
    if t.p.d = true ∧ t.cfg.decimalMode = .nmos then
      let low : Int := (t.a.toNat % 16 : Nat) - (m.toNat % 16 : Nat) + carry t.p.c - 1
      let al : Int := if low < 0 then (low - 6) % 16 - 16 else low
      let r : Int := (t.a.toNat / 16 * 16 : Nat) - (m.toNat / 16 * 16 : Nat) + al
      BitVec.ofInt 8 (if r < 0 then r - 0x60 else r)
    else BitVec.ofInt 8 (t.a.toNat - m.toNat - (1 - carry t.p.c))
  ReadRule .sbc (aluLine 0xE9#8 0xE5#8 0xF5#8 0xED#8 0xFD#8 0xF9#8 0xE1#8 0xF1#8)
    (fun m t =>
      let diff : Int := t.a.toNat - m.toNat - (1 - carry t.p.c)
      { t with
        a := value m t
        p := { nz t.p (BitVec.ofInt 8 diff) with
          c := decide (0 ≤ diff), v := decide (OutOfRange (t.a.toInt - m.toInt - (1 - carry t.p.c))) } })

/-- R243: for valid BCD operands, A and C after a decimal ADC are the decimal sum and its carry. -/
def Obligations.DecimalAdcAddsBcd : Prop :=
  ∀ (o : ReadOperand) (s : State), s.p.d = true → s.cfg.decimalMode = .nmos →
    IsBcd s.a → IsBcd (operand o s) →
    ∃ t, exec (.adc o) s = .next t ∧ IsBcd t.a ∧
      bcd t.a + 100 * carry t.p.c = bcd s.a + bcd (operand o s) + carry s.p.c

/-- R245: for valid BCD operands, A after a decimal SBC is the decimal difference modulo 100, and C says whether there
was no borrow. -/
def Obligations.DecimalSbcSubtractsBcd : Prop :=
  ∀ (o : ReadOperand) (s : State), s.p.d = true → s.cfg.decimalMode = .nmos →
    IsBcd s.a → IsBcd (operand o s) →
    ∃ t, exec (.sbc o) s = .next t ∧ IsBcd t.a ∧
      bcd t.a + bcd (operand o s) + 1 = bcd s.a + carry s.p.c + 100 * (1 - carry t.p.c)

/-- R246, R247, R248 with the outcome table of R249: CMP, CPX and CPY write N, Z and C and no register. -/
def Obligations.ComparesFollowTheirRules : Prop :=
  let flags (r m : Byte) (p : Flags) : Flags :=
    { p with
      n := decide (128 ≤ (r.toNat + 256 - m.toNat) % 256), z := decide (r = m), c := decide (m.toNat ≤ r.toNat) }
  ReadRule .cmp (aluLine 0xC9#8 0xC5#8 0xD5#8 0xCD#8 0xDD#8 0xD9#8 0xC1#8 0xD1#8)
    (fun m t => { t with p := flags t.a m t.p }) ∧
  ReadRule .cpx (shortLine 0xE0#8 0xE4#8 0xEC#8) (fun m t => { t with p := flags t.x m t.p }) ∧
  ReadRule .cpy (shortLine 0xC0#8 0xC4#8 0xCC#8) (fun m t => { t with p := flags t.y m t.p })

/-- R250 to R255: INC and DEC on memory, INX, INY, DEX and DEY on registers, modulo 2^8, N and Z from the result, C and
V unchanged. -/
def Obligations.IncrementsAndDecrementsFollowTheirRules : Prop :=
  let up (v : Byte) : Byte := BitVec.ofNat 8 (v.toNat + 1)
  let down (v : Byte) : Byte := BitVec.ofNat 8 (v.toNat + 255)
  ModifyRule .inc (modifyLine 0xE6#8 0xF6#8 0xEE#8 0xFE#8) up (fun v p => nz p (up v)) ∧
  ModifyRule .dec (modifyLine 0xC6#8 0xD6#8 0xCE#8 0xDE#8) down (fun v p => nz p (down v)) ∧
  ImpliedRule .inx 0xE8#8 (fun s => { s with x := up s.x, p := nz s.p (up s.x) }) 2 ∧
  ImpliedRule .iny 0xC8#8 (fun s => { s with y := up s.y, p := nz s.p (up s.y) }) 2 ∧
  ImpliedRule .dex 0xCA#8 (fun s => { s with x := down s.x, p := nz s.p (down s.x) }) 2 ∧
  ImpliedRule .dey 0x88#8 (fun s => { s with y := down s.y, p := nz s.p (down s.y) }) 2

/-! ## Logic and shifts -/

/-- R270, R271, R272: AND, ORA and EOR, bit by bit. -/
def Obligations.LogicFollowsItsRules : Prop :=
  let line (f : Byte → Byte → Byte) (m : Byte) (t : State) : State := { t with a := f t.a m, p := nz t.p (f t.a m) }
  ∃ conj disj excl : Byte → Byte → Byte,
    (∀ a m k, (conj a m).getLsbD k = (a.getLsbD k && m.getLsbD k)) ∧
    (∀ a m k, (disj a m).getLsbD k = (a.getLsbD k || m.getLsbD k)) ∧
    (∀ a m k, (excl a m).getLsbD k = (a.getLsbD k != m.getLsbD k)) ∧
    ReadRule .and (aluLine 0x29#8 0x25#8 0x35#8 0x2D#8 0x3D#8 0x39#8 0x21#8 0x31#8) (line conj) ∧
    ReadRule .ora (aluLine 0x09#8 0x05#8 0x15#8 0x0D#8 0x1D#8 0x19#8 0x01#8 0x11#8) (line disj) ∧
    ReadRule .eor (aluLine 0x49#8 0x45#8 0x55#8 0x4D#8 0x5D#8 0x59#8 0x41#8 0x51#8) (line excl)

/-- R273: BIT on memory: N and V are bits 7 and 6 of M, Z is from A AND M, nothing else is written. -/
def Obligations.BitTestFollowsItsRule : Prop :=
  ∀ (m : MemOperand) (s : State),
    let r := resolve m s
    let v := peek r.st r.ea
    match ([(.zeroPage, 0x24#8, 3), (.absolute, 0x2C#8, 4)] : Line).lookup m.mode with
    | none => encode (.bit m) = none
    | some (op, base) =>
      encode (.bit m) = some (op :: m.bytes) ∧
      exec (.bit m) s =
        .next { touch r.st r.ea with
          p := { s.p with n := v.getLsbD 7, v := v.getLsbD 6, z := decide (s.a &&& v = 0#8) }
          cycles := s.cycles + base }

/-- R274 to R277: ASL, LSR, ROL and ROR, on the accumulator and on memory, the results as numbers, the rotates through
the C the instruction finds. -/
def Obligations.ShiftsFollowTheirRules : Prop :=
  let asl (_ : Bool) (v : Byte) : Byte := BitVec.ofNat 8 (v.toNat * 2)
  let lsr (_ : Bool) (v : Byte) : Byte := BitVec.ofNat 8 (v.toNat / 2)
  let rol (c : Bool) (v : Byte) : Byte := BitVec.ofNat 8 (v.toNat * 2 + carry c)
  let ror (c : Bool) (v : Byte) : Byte := BitVec.ofNat 8 (v.toNat / 2 + 128 * carry c)
  ShiftRule .asl 0x0A#8 (modifyLine 0x06#8 0x16#8 0x0E#8 0x1E#8) asl 7 ∧
  ShiftRule .lsr 0x4A#8 (modifyLine 0x46#8 0x56#8 0x4E#8 0x5E#8) lsr 0 ∧
  ShiftRule .rol 0x2A#8 (modifyLine 0x26#8 0x36#8 0x2E#8 0x3E#8) rol 7 ∧
  ShiftRule .ror 0x6A#8 (modifyLine 0x66#8 0x76#8 0x6E#8 0x7E#8) ror 0

/-! ## Control transfer -/

/-- R300, R301 with R183: JMP, absolute, and indirect with the high byte from the same page as the low byte. -/
def Obligations.JumpsFollowTheirRules : Prop :=
  ∀ (s : State) (w : Addr),
    encode (.jmp (.abs w)) = some [0x4C#8, BitVec.ofNat 8 w.toNat, BitVec.ofNat 8 (w.toNat / 256)] ∧
    exec (.jmp (.abs w)) s = .next { s with pc := w, cycles := s.cycles + 3 } ∧
    encode (.jmp (.ind w)) = some [0x6C#8, BitVec.ofNat 8 w.toNat, BitVec.ofNat 8 (w.toNat / 256)] ∧
    (let w' : Addr := BitVec.ofNat 16 (w.toNat / 256 * 256 + (w.toNat + 1) % 256)
     exec (.jmp (.ind w)) s =
       .next { touch (touch s w) w' with pc := word (peek (touch s w) w') (peek s w), cycles := s.cycles + 5 })

/-- R302, R303: JSR pushes the address of its last byte, high byte first, and jumps; RTS pulls it, low byte first, and
adds 1. -/
def Obligations.SubroutineCallAndReturn : Prop :=
  ∀ (s : State) (w : Addr),
    (let ret : Addr := BitVec.ofNat 16 (s.pc.toNat + 65535)
     let t := writeByte s (slot s.sp) (BitVec.ofNat 8 (ret.toNat / 256))
     encode (.jsr w) = some [0x20#8, BitVec.ofNat 8 w.toNat, BitVec.ofNat 8 (w.toNat / 256)] ∧
     exec (.jsr w) s =
       .next { writeByte t (slot (s.sp - 1#8)) (BitVec.ofNat 8 ret.toNat) with
         sp := s.sp - 2#8, pc := w, cycles := s.cycles + 6 }) ∧
    (let lo := slot (s.sp + 1#8)
     let hi := slot (s.sp + 2#8)
     encode .rts = some [0x60#8] ∧
     exec .rts s =
       .next { touch (touch s lo) hi with
         sp := s.sp + 2#8, pc := word (peek (touch s lo) hi) (peek s lo) + 1#16, cycles := s.cycles + 6 })

/-- Where the slots are RAM: PLP after PHP restores the flags and S, PLA after PHA restores A from any value, and RTS
after JSR returns to the instruction after the JSR with S restored, wherever PC has been in between (R226 to R229, R302,
R303). -/
def Obligations.PullsUndoPushes : Prop :=
  ∀ (s : State) (w pc : Addr) (a : Byte) (p : Flags), Memory.wf s.ram = true →
    (slot s.sp).toNat < s.cfg.ramSize → (slot (s.sp - 1#8)).toNat < s.cfg.ramSize →
    (∃ t u, exec .php s = .next t ∧ exec .plp { t with p := p } = .next u ∧ u.p = s.p ∧ u.sp = s.sp) ∧
    (∃ t u, exec .pha s = .next t ∧ exec .pla { t with a := a } = .next u ∧ u.a = s.a ∧ u.sp = s.sp) ∧
    (∃ t u, exec (.jsr w) s = .next t ∧ t.pc = w ∧ exec .rts { t with pc := pc } = .next u ∧
      u.pc = s.pc ∧ u.sp = s.sp)

/-- R304, R404: BRK, the trap entry: PC + 1 and the status byte with bits 5 and 4 set go to the stack, I is set, D stays,
and PC is what 0xFFFE and 0xFFFF read, in that order. -/
def Obligations.BreakTakesTheTrap : Prop :=
  ∀ s : State,
    let ret : Addr := BitVec.ofNat 16 (s.pc.toNat + 1)
    let status : Byte := BitVec.ofNat 8 (carry s.p.n * 128 + carry s.p.v * 64 + 0x30 +
      carry s.p.d * 8 + carry s.p.i * 4 + carry s.p.z * 2 + carry s.p.c)
    let t := writeByte s (slot s.sp) (BitVec.ofNat 8 (ret.toNat / 256))
    let t := writeByte t (slot (s.sp - 1#8)) (BitVec.ofNat 8 ret.toNat)
    let t := writeByte t (slot (s.sp - 2#8)) status
    encode .brk = some [0x00#8] ∧
    exec .brk s =
      .next { touch (touch t 0xFFFE#16) 0xFFFF#16 with
        sp := s.sp - 3#8, p := { s.p with i := true }
        pc := word (peek (touch t 0xFFFE#16) 0xFFFF#16) (peek t 0xFFFE#16), cycles := s.cycles + 7 }

/-- R305, R405: RTI, the trap return: the six flags from the first pulled byte, then PC, low byte first; 1 is not
added. -/
def Obligations.ReturnFromInterruptRestores : Prop :=
  ∀ s : State,
    let a1 := slot (s.sp + 1#8)
    let a2 := slot (s.sp + 2#8)
    let a3 := slot (s.sp + 3#8)
    let b := peek s a1
    let t1 := touch s a1
    let t2 := touch t1 a2
    encode .rti = some [0x40#8] ∧
    exec .rti s =
      .next { touch t2 a3 with
        sp := s.sp + 3#8
        p := { n := b.getLsbD 7, v := b.getLsbD 6, d := b.getLsbD 3, i := b.getLsbD 2, z := b.getLsbD 1,
               c := b.getLsbD 0 }
        pc := word (peek t2 a3) (peek t1 a2), cycles := s.cycles + 6 }

/-- In a legal configuration BRK always goes to 0x0000, and where its three slots are RAM, RTI from there returns to the
address of BRK + 2 with the flags and S as they were (R304, R305, R404, R405). -/
def Obligations.RtiUndoesBrk : Prop :=
  ∀ s : State, s.cfg.legal = true → Memory.wf s.ram = true →
    ∃ t, exec .brk s = .next t ∧ t.pc = 0x0000#16 ∧ t.p.i = true ∧ t.p.d = s.p.d ∧
      ((slot s.sp).toNat < s.cfg.ramSize → (slot (s.sp - 1#8)).toNat < s.cfg.ramSize →
        (slot (s.sp - 2#8)).toNat < s.cfg.ramSize →
        ∃ u, exec .rti t = .next u ∧ u.pc = s.pc + 1#16 ∧ u.p = s.p ∧ u.sp = s.sp)

/-- R306 to R314: the eight branches: condition, signed displacement from the next instruction, and cycles. -/
def Obligations.BranchesFollowTheirRules : Prop :=
  BranchRule .bcc 0x90#8 (fun p => !p.c) ∧ BranchRule .bcs 0xB0#8 (fun p => p.c) ∧
  BranchRule .beq 0xF0#8 (fun p => p.z) ∧ BranchRule .bne 0xD0#8 (fun p => !p.z) ∧
  BranchRule .bmi 0x30#8 (fun p => p.n) ∧ BranchRule .bpl 0x10#8 (fun p => !p.n) ∧
  BranchRule .bvc 0x50#8 (fun p => !p.v) ∧ BranchRule .bvs 0x70#8 (fun p => p.v)

/-! ## Flag instructions, NOP and undefined opcodes -/

/-- R330 to R337: CLC, SEC, CLI, SEI, CLD, SED, CLV and NOP. -/
def Obligations.FlagInstructionsFollowTheirRules : Prop :=
  ImpliedRule .clc 0x18#8 (fun s => { s with p := { s.p with c := false } }) 2 ∧
  ImpliedRule .sec 0x38#8 (fun s => { s with p := { s.p with c := true } }) 2 ∧
  ImpliedRule .cli 0x58#8 (fun s => { s with p := { s.p with i := false } }) 2 ∧
  ImpliedRule .sei 0x78#8 (fun s => { s with p := { s.p with i := true } }) 2 ∧
  ImpliedRule .cld 0xD8#8 (fun s => { s with p := { s.p with d := false } }) 2 ∧
  ImpliedRule .sed 0xF8#8 (fun s => { s with p := { s.p with d := true } }) 2 ∧
  ImpliedRule .clv 0xB8#8 (fun s => { s with p := { s.p with v := false } }) 2 ∧
  ImpliedRule .nop 0xEA#8 (fun s => s) 2

/-- R338, R339: an undefined opcode, for each of the 105 values. `exec` completes under both policies: it reports
`IllegalOpcode` with the opcode's own address (PC - 1 after the fetch), takes 1 cycle, and changes nothing else but,
under `fault`, the faulted state. A CPU step on one that lies at no port moves PC on by 1, and under `fault` the next
CPU step stops. -/
def Obligations.UndefinedOpcodeIsANop : Prop :=
  (∀ (op : Byte) (s : State), exec (.undefined op) s =
    .next { s with
      diag := s.diag ++ [.illegalOpcode (BitVec.ofNat 16 (s.pc.toNat + 65535)) op], cycles := s.cycles + 1
      faulted := s.faulted || decide (s.cfg.illegalPolicy = .fault) }) ∧
  ∀ s : State, Running s → CpuTurn s → NoPort s.cfg s.pc → peek s s.pc ∈ undefinedOpcodes →
    ∃ t, step s = .next t ∧
      t = { s with
        pc := s.pc + 1#16, agenda := s.agenda.tail
        trace := { lastPC := s.pc, lastOpcode := peek s s.pc }
        diag := s.diag ++ [.illegalOpcode s.pc (peek s s.pc)], cycles := s.cycles + 1
        faulted := decide (s.cfg.illegalPolicy = .fault) } ∧
      (s.cfg.illegalPolicy = .fault → ∀ l, step { t with agenda := .cpu :: l } = .fault .faultedState)
end

