-- ==== Sys2Proof/Laws/Bits.lean ====
section
/-! SUPPORT. The bit-field helpers of Machine/Bits.lean and the flag computations of Machine/Flags.lean as numbers. -/

namespace Sys2Proof

theorem hiLo_toNat (hi lo : Byte) : (hiLo hi lo).toNat = hi.toNat * 256 + lo.toNat := by
  simp only [hiLo, BitVec.toNat_append]
  rw [← Nat.shiftLeft_add_eq_or_of_lt lo.isLt, Nat.shiftLeft_eq]

theorem hiLo_eq_ofNat (hi lo : Byte) : hiLo hi lo = BitVec.ofNat 16 (hi.toNat * 256 + lo.toNat) := by
  apply BitVec.eq_of_toNat_eq
  rw [hiLo_toNat, BitVec.toNat_ofNat, Nat.mod_eq_of_lt]
  have := hi.isLt
  have := lo.isLt
  omega

theorem lowByte_toNat (a : Addr) : (lowByte a).toNat = a.toNat % 256 := by
  simp [lowByte, BitVec.extractLsb'_toNat]

theorem highByte_toNat (a : Addr) : (highByte a).toNat = a.toNat / 256 := by
  have := a.isLt
  simp [highByte, BitVec.extractLsb'_toNat, Nat.shiftRight_eq_div_pow]
  omega

theorem lowByte_eq_ofNat (a : Addr) : lowByte a = BitVec.ofNat 8 a.toNat := by
  apply BitVec.eq_of_toNat_eq
  rw [lowByte_toNat, BitVec.toNat_ofNat]

theorem highByte_eq_ofNat (a : Addr) : highByte a = BitVec.ofNat 8 (a.toNat / 256) := by
  apply BitVec.eq_of_toNat_eq
  rw [highByte_toNat, BitVec.toNat_ofNat, Nat.mod_eq_of_lt]
  have := a.isLt
  omega

/-- The two halves of an address make it up again. -/
theorem hiLo_halves (a : Addr) : hiLo (highByte a) (lowByte a) = a := by
  apply BitVec.eq_of_toNat_eq
  rw [hiLo_toNat, highByte_toNat, lowByte_toNat]
  omega

@[simp] theorem lowByte_hiLo (hi lo : Byte) : lowByte (hiLo hi lo) = lo := by
  apply BitVec.eq_of_toNat_eq
  rw [lowByte_toNat, hiLo_toNat]
  have := lo.isLt
  omega

@[simp] theorem highByte_hiLo (hi lo : Byte) : highByte (hiLo hi lo) = hi := by
  apply BitVec.eq_of_toNat_eq
  rw [highByte_toNat, hiLo_toNat]
  have := lo.isLt
  omega

theorem zext16_toNat (b : Byte) : (zext16 b).toNat = b.toNat := by
  have := b.isLt
  simp only [zext16, BitVec.toNat_setWidth]
  omega

/-- Same page means same number of 256-byte pages below. -/
theorem page_eq_iff (a b : Addr) : page a = page b ↔ a.toNat / 256 = b.toNat / 256 := by
  rw [page, page, ← highByte_toNat, ← highByte_toNat, BitVec.toNat_inj]

namespace Machine

/-- The pushed status byte unpacks to the flags it was made from (R37). -/
theorem Flags.pulled_pushed (p : Flags) : Flags.pulled p.pushed = p := by
  obtain ⟨n, v, d, i, z, c⟩ := p
  cases n <;> cases v <;> cases d <;> cases i <;> cases z <;> cases c <;> rfl

end Machine

end Sys2Proof
end

