-- ==== Sys2Proof/Laws/Memory.lean ====
section
/-! SUPPORT. The laws of the RAM list: read after write, the canonical form is kept, and in canonical form equal
contents are equal lists. -/

namespace Sys2Proof.Machine

theorem Memory.get_nil (a : Nat) : Memory.get [] a = Memory.blank := rfl

theorem Memory.get_cons (k : Nat) (v : Byte) (m : Memory) (a : Nat) :
    Memory.get ((k, v) :: m) a = if k = a then v else Memory.get m a := rfl

theorem Memory.wfFrom_cons {lo k : Nat} {v : Byte} {m : Memory} :
    Memory.wfFrom lo ((k, v) :: m) = true ↔
      lo ≤ k ∧ v ≠ Memory.blank ∧ Memory.wfFrom (k + 1) m = true := by
  simp [Memory.wfFrom, and_assoc]

theorem Memory.wfFrom_mono {lo lo' : Nat} {m : Memory} (h : Memory.wfFrom lo m = true) (hl : lo' ≤ lo) :
    Memory.wfFrom lo' m = true := by
  cases m with
  | nil => rfl
  | cons c m =>
    obtain ⟨h1, h2, h3⟩ := Memory.wfFrom_cons.mp h
    exact Memory.wfFrom_cons.mpr ⟨hl.trans h1, h2, h3⟩

/-- Below the first listed address everything is blank. -/
theorem Memory.get_below {lo a : Nat} {m : Memory} (h : Memory.wfFrom lo m = true) (ha : a < lo) :
    Memory.get m a = Memory.blank := by
  induction m generalizing lo with
  | nil => rfl
  | cons c m ih =>
    obtain ⟨h1, -, h3⟩ := Memory.wfFrom_cons.mp h
    rw [Memory.get_cons, if_neg (by omega)]
    exact ih h3 (by omega)

/-- A write keeps the canonical form. -/
theorem Memory.wfFrom_set {lo a : Nat} {m : Memory} (v : Byte) (h : Memory.wfFrom lo m = true) (ha : lo ≤ a) :
    Memory.wfFrom lo (Memory.set m a v) = true := by
  induction m generalizing lo with
  | nil =>
    unfold Memory.set
    split
    · rfl
    · simp_all [Memory.wfFrom]
  | cons c m ih =>
    obtain ⟨k, w⟩ := c
    obtain ⟨h1, h2, h3⟩ := Memory.wfFrom_cons.mp h
    unfold Memory.set
    by_cases hlt : a < k
    · rw [if_pos hlt]
      split
      · exact h
      · exact Memory.wfFrom_cons.mpr ⟨ha, ‹_›, Memory.wfFrom_cons.mpr ⟨by omega, h2, h3⟩⟩
    · rw [if_neg hlt]
      by_cases heq : a = k
      · rw [if_pos heq]
        split
        · exact Memory.wfFrom_mono h3 (by omega)
        · exact Memory.wfFrom_cons.mpr ⟨ha, ‹_›, by rw [heq]; exact h3⟩
      · rw [if_neg heq]
        exact Memory.wfFrom_cons.mpr ⟨h1, h2, ih h3 (by omega)⟩

theorem Memory.wf_set {m : Memory} (a : Nat) (v : Byte) (h : Memory.wf m = true) :
    Memory.wf (Memory.set m a v) = true :=
  Memory.wfFrom_set v h (Nat.zero_le a)

theorem Memory.get_set_from {lo a b : Nat} {m : Memory} (v : Byte) (h : Memory.wfFrom lo m = true) :
    Memory.get (Memory.set m a v) b = if b = a then v else Memory.get m b := by
  induction m generalizing lo with
  | nil =>
    unfold Memory.set
    by_cases hv : v = Memory.blank
    · simp [hv, Memory.get_nil]
    · simp [hv, Memory.get_cons, Memory.get_nil, eq_comm]
  | cons c m ih =>
    obtain ⟨k, w⟩ := c
    obtain ⟨h1, h2, h3⟩ := Memory.wfFrom_cons.mp h
    unfold Memory.set
    by_cases hlt : a < k
    · have hb : Memory.get ((k, w) :: m) a = Memory.blank :=
        Memory.get_below (Memory.wfFrom_cons.mpr ⟨le_refl k, h2, h3⟩) hlt
      by_cases hv : v = Memory.blank
      · rw [if_pos hlt, if_pos hv]
        by_cases hba : b = a
        · rw [if_pos hba, hba, hb, hv]
        · rw [if_neg hba]
      · rw [if_pos hlt, if_neg hv, Memory.get_cons]
        simp only [eq_comm]
    · rw [if_neg hlt]
      by_cases heq : a = k
      · rw [if_pos heq]
        by_cases hv : v = Memory.blank
        · rw [if_pos hv, Memory.get_cons]
          by_cases hba : b = a
          · rw [if_pos hba, hv, hba]
            exact Memory.get_below h3 (by omega)
          · rw [if_neg hba, if_neg (by omega)]
        · rw [if_neg hv, Memory.get_cons, Memory.get_cons]
          by_cases hba : b = a
          · rw [if_pos hba.symm, if_pos hba]
          · rw [if_neg (Ne.symm hba), if_neg hba, if_neg (by omega)]
      · rw [if_neg heq, Memory.get_cons, Memory.get_cons, ih h3]
        by_cases hba : b = a
        · rw [if_pos hba, if_neg (by omega), if_pos hba]
        · rw [if_neg hba, if_neg hba]

/-- Read after write: the written byte at its address, every other byte as before. -/
theorem Memory.get_set {m : Memory} (h : Memory.wf m = true) (a b : Nat) (v : Byte) :
    Memory.get (Memory.set m a v) b = if b = a then v else Memory.get m b :=
  Memory.get_set_from v h

/-- A write lists no new address but its own. -/
theorem Memory.mem_set {m : Memory} {a : Nat} {v : Byte} {c : Host.Cell} (h : c ∈ Memory.set m a v) :
    c ∈ m ∨ c = (a, v) := by
  induction m with
  | nil =>
    unfold Memory.set at h
    split at h <;> simp_all
  | cons d m ih =>
    obtain ⟨k, w⟩ := d
    unfold Memory.set at h
    split at h
    · split at h
      · exact .inl h
      · rcases List.mem_cons.mp h with h | h
        · exact .inr h
        · exact .inl h
    · split at h
      · split at h
        · exact .inl (List.mem_cons_of_mem _ h)
        · rcases List.mem_cons.mp h with h | h
          · exact .inr h
          · exact .inl (List.mem_cons_of_mem _ h)
      · rcases List.mem_cons.mp h with h | h
        · exact .inl (h ▸ List.mem_cons_self)
        · rcases ih h with h | h
          · exact .inl (List.mem_cons_of_mem _ h)
          · exact .inr h

theorem Memory.ext_from {lo : Nat} {m m' : Memory} (h : Memory.wfFrom lo m = true) (h' : Memory.wfFrom lo m' = true)
    (hg : ∀ a, Memory.get m a = Memory.get m' a) : m = m' := by
  induction m generalizing lo m' with
  | nil =>
    cases m' with
    | nil => rfl
    | cons c m' =>
      obtain ⟨-, h2, -⟩ := Memory.wfFrom_cons.mp h'
      have := hg c.1
      rw [Memory.get_nil, show Memory.get (c :: m') c.1 = c.2 from if_pos rfl] at this
      exact absurd this.symm h2
  | cons c m ih =>
    obtain ⟨k, v⟩ := c
    obtain ⟨h1, h2, h3⟩ := Memory.wfFrom_cons.mp h
    have hk := hg k
    rw [show Memory.get ((k, v) :: m) k = v from if_pos rfl] at hk
    cases m' with
    | nil => exact absurd (hk.trans (Memory.get_nil k)) h2
    | cons c' m' =>
      obtain ⟨k', v'⟩ := c'
      obtain ⟨h1', h2', h3'⟩ := Memory.wfFrom_cons.mp h'
      have hk' := hg k'
      rw [show Memory.get ((k', v') :: m') k' = v' from if_pos rfl] at hk'
      have hkk : k = k' := by
        rcases Nat.lt_trichotomy k k' with hlt | heq | hgt
        · rw [Memory.get_below (Memory.wfFrom_cons.mpr ⟨le_refl k', h2', h3'⟩) hlt] at hk
          exact absurd hk h2
        · exact heq
        · rw [Memory.get_below (Memory.wfFrom_cons.mpr ⟨le_refl k, h2, h3⟩) hgt] at hk'
          exact absurd hk'.symm h2'
      subst hkk
      have hv : v = v' := hk.trans (if_pos rfl)
      subst hv
      have htail : m = m' := by
        refine ih h3 h3' fun a => ?_
        by_cases ha : a = k
        · rw [Memory.get_below h3 (by omega), Memory.get_below h3' (by omega)]
        · have := hg a
          rwa [Memory.get_cons, Memory.get_cons, if_neg (Ne.symm ha), if_neg (Ne.symm ha)] at this
      rw [htail]

/-- In canonical form, equal contents are equal lists. -/
theorem Memory.ext {m m' : Memory} (h : Memory.wf m = true) (h' : Memory.wf m' = true)
    (hg : ∀ a, Memory.get m a = Memory.get m' a) : m = m' :=
  Memory.ext_from h h' hg

/-! ### Bulk copies -/

theorem Memory.wf_load {m : Memory} (a : Nat) (bs : List Byte) (h : Memory.wf m = true) :
    Memory.wf (Memory.load m a bs) = true := by
  induction bs generalizing m a with
  | nil => exact h
  | cons b bs ih => exact ih (a + 1) (Memory.wf_set a b h)

/-- A bulk copy changes the bytes of its range, each to the byte copied there, and no other byte. -/
theorem Memory.get_load {m : Memory} (h : Memory.wf m = true) (a : Nat) (bs : List Byte) (b : Nat) :
    Memory.get (Memory.load m a bs) b =
      if a ≤ b ∧ b < a + bs.length then bs.getD (b - a) 0x00#8 else Memory.get m b := by
  induction bs generalizing m a with
  | nil => rw [if_neg (by simp)]; rfl
  | cons v bs ih =>
    rw [Memory.load, ih (Memory.wf_set a v h), Memory.get_set h]
    by_cases hb : b = a
    · subst hb
      rw [if_neg (by omega), if_pos rfl, if_pos (by simp)]
      simp
    · rw [if_neg hb]
      by_cases hr : a + 1 ≤ b ∧ b < a + 1 + bs.length
      · rw [if_pos hr, if_pos (by simp; omega)]
        obtain ⟨k, rfl⟩ : ∃ k, b = a + 1 + k := ⟨b - (a + 1), by omega⟩
        simp [show a + 1 + k - (a + 1) = k by omega, show a + 1 + k - a = k + 1 by omega]
      · rw [if_neg hr, if_neg (by simp; omega)]

theorem Memory.mem_load {m : Memory} {a : Nat} {bs : List Byte} {c : Host.Cell} (h : c ∈ Memory.load m a bs) :
    c ∈ m ∨ a ≤ c.1 ∧ c.1 < a + bs.length := by
  induction bs generalizing m a with
  | nil => exact .inl h
  | cons v bs ih =>
    rcases ih h with h | ⟨h1, h2⟩
    · rcases Memory.mem_set h with h | rfl
      · exact .inl h
      · exact .inr ⟨le_refl a, by simp⟩
    · exact .inr ⟨by omega, by simp; omega⟩

theorem Memory.length_save (m : Memory) (a n : Nat) : (Memory.save m a n).length = n := by
  induction n generalizing a with
  | zero => rfl
  | succ n ih => simp [Memory.save, ih]

/-- The k-th byte of a bulk copy out of RAM is the byte at the k-th address. -/
theorem Memory.getD_save (m : Memory) (a n k : Nat) (hk : k < n) :
    (Memory.save m a n).getD k 0x00#8 = Memory.get m (a + k) := by
  induction n generalizing a k with
  | zero => omega
  | succ n ih =>
    cases k with
    | zero => rfl
    | succ k =>
      have := ih (a + 1) k (by omega)
      simpa [Memory.save, Nat.add_assoc, Nat.add_comm 1 k] using this

end Sys2Proof.Machine
end

