-- ==== Sys2Proof/Laws/State.lean ====
section
/-! SUPPORT. What each one-field update of State does to each field: its own field gets the new value, every other
field stays. One simp lemma per field per update, so that no proof unfolds a record update. -/

namespace Sys2Proof.Machine.State

/-! ### `setA` -/

@[simp] theorem setA_cfg (s : State) (v : Byte) : (s.setA v).cfg = s.cfg := rfl
@[simp] theorem setA_a (s : State) (v : Byte) : (s.setA v).a = v := rfl
@[simp] theorem setA_x (s : State) (v : Byte) : (s.setA v).x = s.x := rfl
@[simp] theorem setA_y (s : State) (v : Byte) : (s.setA v).y = s.y := rfl
@[simp] theorem setA_sp (s : State) (v : Byte) : (s.setA v).sp = s.sp := rfl
@[simp] theorem setA_pc (s : State) (v : Byte) : (s.setA v).pc = s.pc := rfl
@[simp] theorem setA_p (s : State) (v : Byte) : (s.setA v).p = s.p := rfl
@[simp] theorem setA_ram (s : State) (v : Byte) : (s.setA v).ram = s.ram := rfl
@[simp] theorem setA_keyboardLatch (s : State) (v : Byte) : (s.setA v).keyboardLatch = s.keyboardLatch := rfl
@[simp] theorem setA_nextReady (s : State) (v : Byte) : (s.setA v).nextReady = s.nextReady := rfl
@[simp] theorem setA_clock (s : State) (v : Byte) : (s.setA v).clock = s.clock := rfl
@[simp] theorem setA_column (s : State) (v : Byte) : (s.setA v).column = s.column := rfl
@[simp] theorem setA_display (s : State) (v : Byte) : (s.setA v).display = s.display := rfl
@[simp] theorem setA_diag (s : State) (v : Byte) : (s.setA v).diag = s.diag := rfl
@[simp] theorem setA_cycles (s : State) (v : Byte) : (s.setA v).cycles = s.cycles := rfl
@[simp] theorem setA_trace (s : State) (v : Byte) : (s.setA v).trace = s.trace := rfl
@[simp] theorem setA_booted (s : State) (v : Byte) : (s.setA v).booted = s.booted := rfl
@[simp] theorem setA_faulted (s : State) (v : Byte) : (s.setA v).faulted = s.faulted := rfl
@[simp] theorem setA_agenda (s : State) (v : Byte) : (s.setA v).agenda = s.agenda := rfl
@[simp] theorem setA_replies (s : State) (v : Byte) : (s.setA v).replies = s.replies := rfl

/-! ### `setX` -/

@[simp] theorem setX_cfg (s : State) (v : Byte) : (s.setX v).cfg = s.cfg := rfl
@[simp] theorem setX_a (s : State) (v : Byte) : (s.setX v).a = s.a := rfl
@[simp] theorem setX_x (s : State) (v : Byte) : (s.setX v).x = v := rfl
@[simp] theorem setX_y (s : State) (v : Byte) : (s.setX v).y = s.y := rfl
@[simp] theorem setX_sp (s : State) (v : Byte) : (s.setX v).sp = s.sp := rfl
@[simp] theorem setX_pc (s : State) (v : Byte) : (s.setX v).pc = s.pc := rfl
@[simp] theorem setX_p (s : State) (v : Byte) : (s.setX v).p = s.p := rfl
@[simp] theorem setX_ram (s : State) (v : Byte) : (s.setX v).ram = s.ram := rfl
@[simp] theorem setX_keyboardLatch (s : State) (v : Byte) : (s.setX v).keyboardLatch = s.keyboardLatch := rfl
@[simp] theorem setX_nextReady (s : State) (v : Byte) : (s.setX v).nextReady = s.nextReady := rfl
@[simp] theorem setX_clock (s : State) (v : Byte) : (s.setX v).clock = s.clock := rfl
@[simp] theorem setX_column (s : State) (v : Byte) : (s.setX v).column = s.column := rfl
@[simp] theorem setX_display (s : State) (v : Byte) : (s.setX v).display = s.display := rfl
@[simp] theorem setX_diag (s : State) (v : Byte) : (s.setX v).diag = s.diag := rfl
@[simp] theorem setX_cycles (s : State) (v : Byte) : (s.setX v).cycles = s.cycles := rfl
@[simp] theorem setX_trace (s : State) (v : Byte) : (s.setX v).trace = s.trace := rfl
@[simp] theorem setX_booted (s : State) (v : Byte) : (s.setX v).booted = s.booted := rfl
@[simp] theorem setX_faulted (s : State) (v : Byte) : (s.setX v).faulted = s.faulted := rfl
@[simp] theorem setX_agenda (s : State) (v : Byte) : (s.setX v).agenda = s.agenda := rfl
@[simp] theorem setX_replies (s : State) (v : Byte) : (s.setX v).replies = s.replies := rfl

/-! ### `setY` -/

@[simp] theorem setY_cfg (s : State) (v : Byte) : (s.setY v).cfg = s.cfg := rfl
@[simp] theorem setY_a (s : State) (v : Byte) : (s.setY v).a = s.a := rfl
@[simp] theorem setY_x (s : State) (v : Byte) : (s.setY v).x = s.x := rfl
@[simp] theorem setY_y (s : State) (v : Byte) : (s.setY v).y = v := rfl
@[simp] theorem setY_sp (s : State) (v : Byte) : (s.setY v).sp = s.sp := rfl
@[simp] theorem setY_pc (s : State) (v : Byte) : (s.setY v).pc = s.pc := rfl
@[simp] theorem setY_p (s : State) (v : Byte) : (s.setY v).p = s.p := rfl
@[simp] theorem setY_ram (s : State) (v : Byte) : (s.setY v).ram = s.ram := rfl
@[simp] theorem setY_keyboardLatch (s : State) (v : Byte) : (s.setY v).keyboardLatch = s.keyboardLatch := rfl
@[simp] theorem setY_nextReady (s : State) (v : Byte) : (s.setY v).nextReady = s.nextReady := rfl
@[simp] theorem setY_clock (s : State) (v : Byte) : (s.setY v).clock = s.clock := rfl
@[simp] theorem setY_column (s : State) (v : Byte) : (s.setY v).column = s.column := rfl
@[simp] theorem setY_display (s : State) (v : Byte) : (s.setY v).display = s.display := rfl
@[simp] theorem setY_diag (s : State) (v : Byte) : (s.setY v).diag = s.diag := rfl
@[simp] theorem setY_cycles (s : State) (v : Byte) : (s.setY v).cycles = s.cycles := rfl
@[simp] theorem setY_trace (s : State) (v : Byte) : (s.setY v).trace = s.trace := rfl
@[simp] theorem setY_booted (s : State) (v : Byte) : (s.setY v).booted = s.booted := rfl
@[simp] theorem setY_faulted (s : State) (v : Byte) : (s.setY v).faulted = s.faulted := rfl
@[simp] theorem setY_agenda (s : State) (v : Byte) : (s.setY v).agenda = s.agenda := rfl
@[simp] theorem setY_replies (s : State) (v : Byte) : (s.setY v).replies = s.replies := rfl

/-! ### `setSP` -/

@[simp] theorem setSP_cfg (s : State) (v : Byte) : (s.setSP v).cfg = s.cfg := rfl
@[simp] theorem setSP_a (s : State) (v : Byte) : (s.setSP v).a = s.a := rfl
@[simp] theorem setSP_x (s : State) (v : Byte) : (s.setSP v).x = s.x := rfl
@[simp] theorem setSP_y (s : State) (v : Byte) : (s.setSP v).y = s.y := rfl
@[simp] theorem setSP_sp (s : State) (v : Byte) : (s.setSP v).sp = v := rfl
@[simp] theorem setSP_pc (s : State) (v : Byte) : (s.setSP v).pc = s.pc := rfl
@[simp] theorem setSP_p (s : State) (v : Byte) : (s.setSP v).p = s.p := rfl
@[simp] theorem setSP_ram (s : State) (v : Byte) : (s.setSP v).ram = s.ram := rfl
@[simp] theorem setSP_keyboardLatch (s : State) (v : Byte) : (s.setSP v).keyboardLatch = s.keyboardLatch := rfl
@[simp] theorem setSP_nextReady (s : State) (v : Byte) : (s.setSP v).nextReady = s.nextReady := rfl
@[simp] theorem setSP_clock (s : State) (v : Byte) : (s.setSP v).clock = s.clock := rfl
@[simp] theorem setSP_column (s : State) (v : Byte) : (s.setSP v).column = s.column := rfl
@[simp] theorem setSP_display (s : State) (v : Byte) : (s.setSP v).display = s.display := rfl
@[simp] theorem setSP_diag (s : State) (v : Byte) : (s.setSP v).diag = s.diag := rfl
@[simp] theorem setSP_cycles (s : State) (v : Byte) : (s.setSP v).cycles = s.cycles := rfl
@[simp] theorem setSP_trace (s : State) (v : Byte) : (s.setSP v).trace = s.trace := rfl
@[simp] theorem setSP_booted (s : State) (v : Byte) : (s.setSP v).booted = s.booted := rfl
@[simp] theorem setSP_faulted (s : State) (v : Byte) : (s.setSP v).faulted = s.faulted := rfl
@[simp] theorem setSP_agenda (s : State) (v : Byte) : (s.setSP v).agenda = s.agenda := rfl
@[simp] theorem setSP_replies (s : State) (v : Byte) : (s.setSP v).replies = s.replies := rfl

/-! ### `setPC` -/

@[simp] theorem setPC_cfg (s : State) (v : Addr) : (s.setPC v).cfg = s.cfg := rfl
@[simp] theorem setPC_a (s : State) (v : Addr) : (s.setPC v).a = s.a := rfl
@[simp] theorem setPC_x (s : State) (v : Addr) : (s.setPC v).x = s.x := rfl
@[simp] theorem setPC_y (s : State) (v : Addr) : (s.setPC v).y = s.y := rfl
@[simp] theorem setPC_sp (s : State) (v : Addr) : (s.setPC v).sp = s.sp := rfl
@[simp] theorem setPC_pc (s : State) (v : Addr) : (s.setPC v).pc = v := rfl
@[simp] theorem setPC_p (s : State) (v : Addr) : (s.setPC v).p = s.p := rfl
@[simp] theorem setPC_ram (s : State) (v : Addr) : (s.setPC v).ram = s.ram := rfl
@[simp] theorem setPC_keyboardLatch (s : State) (v : Addr) : (s.setPC v).keyboardLatch = s.keyboardLatch := rfl
@[simp] theorem setPC_nextReady (s : State) (v : Addr) : (s.setPC v).nextReady = s.nextReady := rfl
@[simp] theorem setPC_clock (s : State) (v : Addr) : (s.setPC v).clock = s.clock := rfl
@[simp] theorem setPC_column (s : State) (v : Addr) : (s.setPC v).column = s.column := rfl
@[simp] theorem setPC_display (s : State) (v : Addr) : (s.setPC v).display = s.display := rfl
@[simp] theorem setPC_diag (s : State) (v : Addr) : (s.setPC v).diag = s.diag := rfl
@[simp] theorem setPC_cycles (s : State) (v : Addr) : (s.setPC v).cycles = s.cycles := rfl
@[simp] theorem setPC_trace (s : State) (v : Addr) : (s.setPC v).trace = s.trace := rfl
@[simp] theorem setPC_booted (s : State) (v : Addr) : (s.setPC v).booted = s.booted := rfl
@[simp] theorem setPC_faulted (s : State) (v : Addr) : (s.setPC v).faulted = s.faulted := rfl
@[simp] theorem setPC_agenda (s : State) (v : Addr) : (s.setPC v).agenda = s.agenda := rfl
@[simp] theorem setPC_replies (s : State) (v : Addr) : (s.setPC v).replies = s.replies := rfl

/-! ### `setP` -/

@[simp] theorem setP_cfg (s : State) (p : Flags) : (s.setP p).cfg = s.cfg := rfl
@[simp] theorem setP_a (s : State) (p : Flags) : (s.setP p).a = s.a := rfl
@[simp] theorem setP_x (s : State) (p : Flags) : (s.setP p).x = s.x := rfl
@[simp] theorem setP_y (s : State) (p : Flags) : (s.setP p).y = s.y := rfl
@[simp] theorem setP_sp (s : State) (p : Flags) : (s.setP p).sp = s.sp := rfl
@[simp] theorem setP_pc (s : State) (p : Flags) : (s.setP p).pc = s.pc := rfl
@[simp] theorem setP_p (s : State) (p : Flags) : (s.setP p).p = p := rfl
@[simp] theorem setP_ram (s : State) (p : Flags) : (s.setP p).ram = s.ram := rfl
@[simp] theorem setP_keyboardLatch (s : State) (p : Flags) : (s.setP p).keyboardLatch = s.keyboardLatch := rfl
@[simp] theorem setP_nextReady (s : State) (p : Flags) : (s.setP p).nextReady = s.nextReady := rfl
@[simp] theorem setP_clock (s : State) (p : Flags) : (s.setP p).clock = s.clock := rfl
@[simp] theorem setP_column (s : State) (p : Flags) : (s.setP p).column = s.column := rfl
@[simp] theorem setP_display (s : State) (p : Flags) : (s.setP p).display = s.display := rfl
@[simp] theorem setP_diag (s : State) (p : Flags) : (s.setP p).diag = s.diag := rfl
@[simp] theorem setP_cycles (s : State) (p : Flags) : (s.setP p).cycles = s.cycles := rfl
@[simp] theorem setP_trace (s : State) (p : Flags) : (s.setP p).trace = s.trace := rfl
@[simp] theorem setP_booted (s : State) (p : Flags) : (s.setP p).booted = s.booted := rfl
@[simp] theorem setP_faulted (s : State) (p : Flags) : (s.setP p).faulted = s.faulted := rfl
@[simp] theorem setP_agenda (s : State) (p : Flags) : (s.setP p).agenda = s.agenda := rfl
@[simp] theorem setP_replies (s : State) (p : Flags) : (s.setP p).replies = s.replies := rfl

/-! ### `setRam` -/

@[simp] theorem setRam_cfg (s : State) (m : Memory) : (s.setRam m).cfg = s.cfg := rfl
@[simp] theorem setRam_a (s : State) (m : Memory) : (s.setRam m).a = s.a := rfl
@[simp] theorem setRam_x (s : State) (m : Memory) : (s.setRam m).x = s.x := rfl
@[simp] theorem setRam_y (s : State) (m : Memory) : (s.setRam m).y = s.y := rfl
@[simp] theorem setRam_sp (s : State) (m : Memory) : (s.setRam m).sp = s.sp := rfl
@[simp] theorem setRam_pc (s : State) (m : Memory) : (s.setRam m).pc = s.pc := rfl
@[simp] theorem setRam_p (s : State) (m : Memory) : (s.setRam m).p = s.p := rfl
@[simp] theorem setRam_ram (s : State) (m : Memory) : (s.setRam m).ram = m := rfl
@[simp] theorem setRam_keyboardLatch (s : State) (m : Memory) : (s.setRam m).keyboardLatch = s.keyboardLatch := rfl
@[simp] theorem setRam_nextReady (s : State) (m : Memory) : (s.setRam m).nextReady = s.nextReady := rfl
@[simp] theorem setRam_clock (s : State) (m : Memory) : (s.setRam m).clock = s.clock := rfl
@[simp] theorem setRam_column (s : State) (m : Memory) : (s.setRam m).column = s.column := rfl
@[simp] theorem setRam_display (s : State) (m : Memory) : (s.setRam m).display = s.display := rfl
@[simp] theorem setRam_diag (s : State) (m : Memory) : (s.setRam m).diag = s.diag := rfl
@[simp] theorem setRam_cycles (s : State) (m : Memory) : (s.setRam m).cycles = s.cycles := rfl
@[simp] theorem setRam_trace (s : State) (m : Memory) : (s.setRam m).trace = s.trace := rfl
@[simp] theorem setRam_booted (s : State) (m : Memory) : (s.setRam m).booted = s.booted := rfl
@[simp] theorem setRam_faulted (s : State) (m : Memory) : (s.setRam m).faulted = s.faulted := rfl
@[simp] theorem setRam_agenda (s : State) (m : Memory) : (s.setRam m).agenda = s.agenda := rfl
@[simp] theorem setRam_replies (s : State) (m : Memory) : (s.setRam m).replies = s.replies := rfl

/-! ### `setLatch` -/

@[simp] theorem setLatch_cfg (s : State) (l : Option Byte) : (s.setLatch l).cfg = s.cfg := rfl
@[simp] theorem setLatch_a (s : State) (l : Option Byte) : (s.setLatch l).a = s.a := rfl
@[simp] theorem setLatch_x (s : State) (l : Option Byte) : (s.setLatch l).x = s.x := rfl
@[simp] theorem setLatch_y (s : State) (l : Option Byte) : (s.setLatch l).y = s.y := rfl
@[simp] theorem setLatch_sp (s : State) (l : Option Byte) : (s.setLatch l).sp = s.sp := rfl
@[simp] theorem setLatch_pc (s : State) (l : Option Byte) : (s.setLatch l).pc = s.pc := rfl
@[simp] theorem setLatch_p (s : State) (l : Option Byte) : (s.setLatch l).p = s.p := rfl
@[simp] theorem setLatch_ram (s : State) (l : Option Byte) : (s.setLatch l).ram = s.ram := rfl
@[simp] theorem setLatch_keyboardLatch (s : State) (l : Option Byte) : (s.setLatch l).keyboardLatch = l := rfl
@[simp] theorem setLatch_nextReady (s : State) (l : Option Byte) : (s.setLatch l).nextReady = s.nextReady := rfl
@[simp] theorem setLatch_clock (s : State) (l : Option Byte) : (s.setLatch l).clock = s.clock := rfl
@[simp] theorem setLatch_column (s : State) (l : Option Byte) : (s.setLatch l).column = s.column := rfl
@[simp] theorem setLatch_display (s : State) (l : Option Byte) : (s.setLatch l).display = s.display := rfl
@[simp] theorem setLatch_diag (s : State) (l : Option Byte) : (s.setLatch l).diag = s.diag := rfl
@[simp] theorem setLatch_cycles (s : State) (l : Option Byte) : (s.setLatch l).cycles = s.cycles := rfl
@[simp] theorem setLatch_trace (s : State) (l : Option Byte) : (s.setLatch l).trace = s.trace := rfl
@[simp] theorem setLatch_booted (s : State) (l : Option Byte) : (s.setLatch l).booted = s.booted := rfl
@[simp] theorem setLatch_faulted (s : State) (l : Option Byte) : (s.setLatch l).faulted = s.faulted := rfl
@[simp] theorem setLatch_agenda (s : State) (l : Option Byte) : (s.setLatch l).agenda = s.agenda := rfl
@[simp] theorem setLatch_replies (s : State) (l : Option Byte) : (s.setLatch l).replies = s.replies := rfl

/-! ### `setReady` -/

@[simp] theorem setReady_cfg (s : State) (t : Nat) : (s.setReady t).cfg = s.cfg := rfl
@[simp] theorem setReady_a (s : State) (t : Nat) : (s.setReady t).a = s.a := rfl
@[simp] theorem setReady_x (s : State) (t : Nat) : (s.setReady t).x = s.x := rfl
@[simp] theorem setReady_y (s : State) (t : Nat) : (s.setReady t).y = s.y := rfl
@[simp] theorem setReady_sp (s : State) (t : Nat) : (s.setReady t).sp = s.sp := rfl
@[simp] theorem setReady_pc (s : State) (t : Nat) : (s.setReady t).pc = s.pc := rfl
@[simp] theorem setReady_p (s : State) (t : Nat) : (s.setReady t).p = s.p := rfl
@[simp] theorem setReady_ram (s : State) (t : Nat) : (s.setReady t).ram = s.ram := rfl
@[simp] theorem setReady_keyboardLatch (s : State) (t : Nat) : (s.setReady t).keyboardLatch = s.keyboardLatch := rfl
@[simp] theorem setReady_nextReady (s : State) (t : Nat) : (s.setReady t).nextReady = some t := rfl
@[simp] theorem setReady_clock (s : State) (t : Nat) : (s.setReady t).clock = s.clock := rfl
@[simp] theorem setReady_column (s : State) (t : Nat) : (s.setReady t).column = s.column := rfl
@[simp] theorem setReady_display (s : State) (t : Nat) : (s.setReady t).display = s.display := rfl
@[simp] theorem setReady_diag (s : State) (t : Nat) : (s.setReady t).diag = s.diag := rfl
@[simp] theorem setReady_cycles (s : State) (t : Nat) : (s.setReady t).cycles = s.cycles := rfl
@[simp] theorem setReady_trace (s : State) (t : Nat) : (s.setReady t).trace = s.trace := rfl
@[simp] theorem setReady_booted (s : State) (t : Nat) : (s.setReady t).booted = s.booted := rfl
@[simp] theorem setReady_faulted (s : State) (t : Nat) : (s.setReady t).faulted = s.faulted := rfl
@[simp] theorem setReady_agenda (s : State) (t : Nat) : (s.setReady t).agenda = s.agenda := rfl
@[simp] theorem setReady_replies (s : State) (t : Nat) : (s.setReady t).replies = s.replies := rfl

/-! ### `setTrace` -/

@[simp] theorem setTrace_cfg (s : State) (t : Trace) : (s.setTrace t).cfg = s.cfg := rfl
@[simp] theorem setTrace_a (s : State) (t : Trace) : (s.setTrace t).a = s.a := rfl
@[simp] theorem setTrace_x (s : State) (t : Trace) : (s.setTrace t).x = s.x := rfl
@[simp] theorem setTrace_y (s : State) (t : Trace) : (s.setTrace t).y = s.y := rfl
@[simp] theorem setTrace_sp (s : State) (t : Trace) : (s.setTrace t).sp = s.sp := rfl
@[simp] theorem setTrace_pc (s : State) (t : Trace) : (s.setTrace t).pc = s.pc := rfl
@[simp] theorem setTrace_p (s : State) (t : Trace) : (s.setTrace t).p = s.p := rfl
@[simp] theorem setTrace_ram (s : State) (t : Trace) : (s.setTrace t).ram = s.ram := rfl
@[simp] theorem setTrace_keyboardLatch (s : State) (t : Trace) : (s.setTrace t).keyboardLatch = s.keyboardLatch := rfl
@[simp] theorem setTrace_nextReady (s : State) (t : Trace) : (s.setTrace t).nextReady = s.nextReady := rfl
@[simp] theorem setTrace_clock (s : State) (t : Trace) : (s.setTrace t).clock = s.clock := rfl
@[simp] theorem setTrace_column (s : State) (t : Trace) : (s.setTrace t).column = s.column := rfl
@[simp] theorem setTrace_display (s : State) (t : Trace) : (s.setTrace t).display = s.display := rfl
@[simp] theorem setTrace_diag (s : State) (t : Trace) : (s.setTrace t).diag = s.diag := rfl
@[simp] theorem setTrace_cycles (s : State) (t : Trace) : (s.setTrace t).cycles = s.cycles := rfl
@[simp] theorem setTrace_trace (s : State) (t : Trace) : (s.setTrace t).trace = t := rfl
@[simp] theorem setTrace_booted (s : State) (t : Trace) : (s.setTrace t).booted = s.booted := rfl
@[simp] theorem setTrace_faulted (s : State) (t : Trace) : (s.setTrace t).faulted = s.faulted := rfl
@[simp] theorem setTrace_agenda (s : State) (t : Trace) : (s.setTrace t).agenda = s.agenda := rfl
@[simp] theorem setTrace_replies (s : State) (t : Trace) : (s.setTrace t).replies = s.replies := rfl

/-! ### `setAgenda` -/

@[simp] theorem setAgenda_cfg (s : State) (l : List Move) : (s.setAgenda l).cfg = s.cfg := rfl
@[simp] theorem setAgenda_a (s : State) (l : List Move) : (s.setAgenda l).a = s.a := rfl
@[simp] theorem setAgenda_x (s : State) (l : List Move) : (s.setAgenda l).x = s.x := rfl
@[simp] theorem setAgenda_y (s : State) (l : List Move) : (s.setAgenda l).y = s.y := rfl
@[simp] theorem setAgenda_sp (s : State) (l : List Move) : (s.setAgenda l).sp = s.sp := rfl
@[simp] theorem setAgenda_pc (s : State) (l : List Move) : (s.setAgenda l).pc = s.pc := rfl
@[simp] theorem setAgenda_p (s : State) (l : List Move) : (s.setAgenda l).p = s.p := rfl
@[simp] theorem setAgenda_ram (s : State) (l : List Move) : (s.setAgenda l).ram = s.ram := rfl
@[simp] theorem setAgenda_keyboardLatch (s : State) (l : List Move) : (s.setAgenda l).keyboardLatch = s.keyboardLatch := rfl
@[simp] theorem setAgenda_nextReady (s : State) (l : List Move) : (s.setAgenda l).nextReady = s.nextReady := rfl
@[simp] theorem setAgenda_clock (s : State) (l : List Move) : (s.setAgenda l).clock = s.clock := rfl
@[simp] theorem setAgenda_column (s : State) (l : List Move) : (s.setAgenda l).column = s.column := rfl
@[simp] theorem setAgenda_display (s : State) (l : List Move) : (s.setAgenda l).display = s.display := rfl
@[simp] theorem setAgenda_diag (s : State) (l : List Move) : (s.setAgenda l).diag = s.diag := rfl
@[simp] theorem setAgenda_cycles (s : State) (l : List Move) : (s.setAgenda l).cycles = s.cycles := rfl
@[simp] theorem setAgenda_trace (s : State) (l : List Move) : (s.setAgenda l).trace = s.trace := rfl
@[simp] theorem setAgenda_booted (s : State) (l : List Move) : (s.setAgenda l).booted = s.booted := rfl
@[simp] theorem setAgenda_faulted (s : State) (l : List Move) : (s.setAgenda l).faulted = s.faulted := rfl
@[simp] theorem setAgenda_agenda (s : State) (l : List Move) : (s.setAgenda l).agenda = l := rfl
@[simp] theorem setAgenda_replies (s : State) (l : List Move) : (s.setAgenda l).replies = s.replies := rfl

/-! ### `addCycles` -/

@[simp] theorem addCycles_cfg (s : State) (n : Nat) : (s.addCycles n).cfg = s.cfg := rfl
@[simp] theorem addCycles_a (s : State) (n : Nat) : (s.addCycles n).a = s.a := rfl
@[simp] theorem addCycles_x (s : State) (n : Nat) : (s.addCycles n).x = s.x := rfl
@[simp] theorem addCycles_y (s : State) (n : Nat) : (s.addCycles n).y = s.y := rfl
@[simp] theorem addCycles_sp (s : State) (n : Nat) : (s.addCycles n).sp = s.sp := rfl
@[simp] theorem addCycles_pc (s : State) (n : Nat) : (s.addCycles n).pc = s.pc := rfl
@[simp] theorem addCycles_p (s : State) (n : Nat) : (s.addCycles n).p = s.p := rfl
@[simp] theorem addCycles_ram (s : State) (n : Nat) : (s.addCycles n).ram = s.ram := rfl
@[simp] theorem addCycles_keyboardLatch (s : State) (n : Nat) : (s.addCycles n).keyboardLatch = s.keyboardLatch := rfl
@[simp] theorem addCycles_nextReady (s : State) (n : Nat) : (s.addCycles n).nextReady = s.nextReady := rfl
@[simp] theorem addCycles_clock (s : State) (n : Nat) : (s.addCycles n).clock = s.clock := rfl
@[simp] theorem addCycles_column (s : State) (n : Nat) : (s.addCycles n).column = s.column := rfl
@[simp] theorem addCycles_display (s : State) (n : Nat) : (s.addCycles n).display = s.display := rfl
@[simp] theorem addCycles_diag (s : State) (n : Nat) : (s.addCycles n).diag = s.diag := rfl
@[simp] theorem addCycles_cycles (s : State) (n : Nat) : (s.addCycles n).cycles = s.cycles + n := rfl
@[simp] theorem addCycles_trace (s : State) (n : Nat) : (s.addCycles n).trace = s.trace := rfl
@[simp] theorem addCycles_booted (s : State) (n : Nat) : (s.addCycles n).booted = s.booted := rfl
@[simp] theorem addCycles_faulted (s : State) (n : Nat) : (s.addCycles n).faulted = s.faulted := rfl
@[simp] theorem addCycles_agenda (s : State) (n : Nat) : (s.addCycles n).agenda = s.agenda := rfl
@[simp] theorem addCycles_replies (s : State) (n : Nat) : (s.addCycles n).replies = s.replies := rfl

/-! ### `report` -/

@[simp] theorem report_cfg (s : State) (e : DiagEvent) : (s.report e).cfg = s.cfg := rfl
@[simp] theorem report_a (s : State) (e : DiagEvent) : (s.report e).a = s.a := rfl
@[simp] theorem report_x (s : State) (e : DiagEvent) : (s.report e).x = s.x := rfl
@[simp] theorem report_y (s : State) (e : DiagEvent) : (s.report e).y = s.y := rfl
@[simp] theorem report_sp (s : State) (e : DiagEvent) : (s.report e).sp = s.sp := rfl
@[simp] theorem report_pc (s : State) (e : DiagEvent) : (s.report e).pc = s.pc := rfl
@[simp] theorem report_p (s : State) (e : DiagEvent) : (s.report e).p = s.p := rfl
@[simp] theorem report_ram (s : State) (e : DiagEvent) : (s.report e).ram = s.ram := rfl
@[simp] theorem report_keyboardLatch (s : State) (e : DiagEvent) : (s.report e).keyboardLatch = s.keyboardLatch := rfl
@[simp] theorem report_nextReady (s : State) (e : DiagEvent) : (s.report e).nextReady = s.nextReady := rfl
@[simp] theorem report_clock (s : State) (e : DiagEvent) : (s.report e).clock = s.clock := rfl
@[simp] theorem report_column (s : State) (e : DiagEvent) : (s.report e).column = s.column := rfl
@[simp] theorem report_display (s : State) (e : DiagEvent) : (s.report e).display = s.display := rfl
@[simp] theorem report_diag (s : State) (e : DiagEvent) : (s.report e).diag = s.diag ++ [e] := rfl
@[simp] theorem report_cycles (s : State) (e : DiagEvent) : (s.report e).cycles = s.cycles := rfl
@[simp] theorem report_trace (s : State) (e : DiagEvent) : (s.report e).trace = s.trace := rfl
@[simp] theorem report_booted (s : State) (e : DiagEvent) : (s.report e).booted = s.booted := rfl
@[simp] theorem report_faulted (s : State) (e : DiagEvent) : (s.report e).faulted = s.faulted := rfl
@[simp] theorem report_agenda (s : State) (e : DiagEvent) : (s.report e).agenda = s.agenda := rfl
@[simp] theorem report_replies (s : State) (e : DiagEvent) : (s.report e).replies = s.replies := rfl

/-! ### `reply` -/

@[simp] theorem reply_cfg (s : State) (r : Reply) : (s.reply r).cfg = s.cfg := rfl
@[simp] theorem reply_a (s : State) (r : Reply) : (s.reply r).a = s.a := rfl
@[simp] theorem reply_x (s : State) (r : Reply) : (s.reply r).x = s.x := rfl
@[simp] theorem reply_y (s : State) (r : Reply) : (s.reply r).y = s.y := rfl
@[simp] theorem reply_sp (s : State) (r : Reply) : (s.reply r).sp = s.sp := rfl
@[simp] theorem reply_pc (s : State) (r : Reply) : (s.reply r).pc = s.pc := rfl
@[simp] theorem reply_p (s : State) (r : Reply) : (s.reply r).p = s.p := rfl
@[simp] theorem reply_ram (s : State) (r : Reply) : (s.reply r).ram = s.ram := rfl
@[simp] theorem reply_keyboardLatch (s : State) (r : Reply) : (s.reply r).keyboardLatch = s.keyboardLatch := rfl
@[simp] theorem reply_nextReady (s : State) (r : Reply) : (s.reply r).nextReady = s.nextReady := rfl
@[simp] theorem reply_clock (s : State) (r : Reply) : (s.reply r).clock = s.clock := rfl
@[simp] theorem reply_column (s : State) (r : Reply) : (s.reply r).column = s.column := rfl
@[simp] theorem reply_display (s : State) (r : Reply) : (s.reply r).display = s.display := rfl
@[simp] theorem reply_diag (s : State) (r : Reply) : (s.reply r).diag = s.diag := rfl
@[simp] theorem reply_cycles (s : State) (r : Reply) : (s.reply r).cycles = s.cycles := rfl
@[simp] theorem reply_trace (s : State) (r : Reply) : (s.reply r).trace = s.trace := rfl
@[simp] theorem reply_booted (s : State) (r : Reply) : (s.reply r).booted = s.booted := rfl
@[simp] theorem reply_faulted (s : State) (r : Reply) : (s.reply r).faulted = s.faulted := rfl
@[simp] theorem reply_agenda (s : State) (r : Reply) : (s.reply r).agenda = s.agenda := rfl
@[simp] theorem reply_replies (s : State) (r : Reply) : (s.reply r).replies = s.replies ++ [r] := rfl

/-! ### `callback` -/

@[simp] theorem callback_cfg (s : State) (e : DisplayEvent) (k : Nat) : (s.callback e k).cfg = s.cfg := rfl
@[simp] theorem callback_a (s : State) (e : DisplayEvent) (k : Nat) : (s.callback e k).a = s.a := rfl
@[simp] theorem callback_x (s : State) (e : DisplayEvent) (k : Nat) : (s.callback e k).x = s.x := rfl
@[simp] theorem callback_y (s : State) (e : DisplayEvent) (k : Nat) : (s.callback e k).y = s.y := rfl
@[simp] theorem callback_sp (s : State) (e : DisplayEvent) (k : Nat) : (s.callback e k).sp = s.sp := rfl
@[simp] theorem callback_pc (s : State) (e : DisplayEvent) (k : Nat) : (s.callback e k).pc = s.pc := rfl
@[simp] theorem callback_p (s : State) (e : DisplayEvent) (k : Nat) : (s.callback e k).p = s.p := rfl
@[simp] theorem callback_ram (s : State) (e : DisplayEvent) (k : Nat) : (s.callback e k).ram = s.ram := rfl
@[simp] theorem callback_keyboardLatch (s : State) (e : DisplayEvent) (k : Nat) : (s.callback e k).keyboardLatch = s.keyboardLatch := rfl
@[simp] theorem callback_nextReady (s : State) (e : DisplayEvent) (k : Nat) : (s.callback e k).nextReady = s.nextReady := rfl
@[simp] theorem callback_clock (s : State) (e : DisplayEvent) (k : Nat) : (s.callback e k).clock = s.clock := rfl
@[simp] theorem callback_column (s : State) (e : DisplayEvent) (k : Nat) : (s.callback e k).column = k := rfl
@[simp] theorem callback_display (s : State) (e : DisplayEvent) (k : Nat) : (s.callback e k).display = s.display ++ [e] := rfl
@[simp] theorem callback_diag (s : State) (e : DisplayEvent) (k : Nat) : (s.callback e k).diag = s.diag := rfl
@[simp] theorem callback_cycles (s : State) (e : DisplayEvent) (k : Nat) : (s.callback e k).cycles = s.cycles := rfl
@[simp] theorem callback_trace (s : State) (e : DisplayEvent) (k : Nat) : (s.callback e k).trace = s.trace := rfl
@[simp] theorem callback_booted (s : State) (e : DisplayEvent) (k : Nat) : (s.callback e k).booted = s.booted := rfl
@[simp] theorem callback_faulted (s : State) (e : DisplayEvent) (k : Nat) : (s.callback e k).faulted = s.faulted := rfl
@[simp] theorem callback_agenda (s : State) (e : DisplayEvent) (k : Nat) : (s.callback e k).agenda = s.agenda := rfl
@[simp] theorem callback_replies (s : State) (e : DisplayEvent) (k : Nat) : (s.callback e k).replies = s.replies := rfl

end Sys2Proof.Machine.State
end

