-- ==== Sys2Proof/Laws/Ops.lean ====
section
/-! SUPPORT. What the shared operations of Machine/Ops.lean do to each field, the decode of an address in a legal
configuration, and the laws of reads, writes and the stack. -/

namespace Sys2Proof.Machine

/-! ### The decode -/

theorem regionOf_ram_iff {cfg : Config} {a : Addr} : regionOf cfg a = .ram ↔ a.toNat < cfg.ramSize := by
  unfold regionOf
  repeat' split
  all_goals simp_all

/-- What legality says, as propositions. -/
theorem legal_iff {cfg : Config} : cfg.legal = true ↔
    cfg.ramSize ≤ 0xD00F ∧ cfg.romImage.length = 252 ∧ cfg.basicImage.length = 4096 ∧ 1 ≤ cfg.windowWidth ∧
      cfg.ports.Nodup ∧
      ∀ a ∈ cfg.ports, cfg.ramSize ≤ a.toNat ∧ ¬ (0xE000 ≤ a.toNat ∧ a.toNat ≤ 0xEFFF) ∧ a.toNat < 0xFF00 := by
  simp only [Config.legal, Config.portAllowed, Bool.and_eq_true, decide_eq_true_eq, List.all_eq_true,
    Bool.not_eq_true', Bool.and_eq_false_iff, decide_eq_false_iff_not, not_and_or, not_le, and_assoc]

/-- The default configuration is legal. -/
theorem default_legal : Config.default.legal = true := by decide +kernel

/-- A port of a legal configuration: not RAM, not ROM, not vector. -/
theorem port_range {cfg : Config} (h : cfg.legal = true) {a : Addr} (ha : a ∈ cfg.ports) :
    cfg.ramSize ≤ a.toNat ∧ ¬ (0xE000 ≤ a.toNat ∧ a.toNat ≤ 0xEFFF) ∧ a.toNat < 0xFF00 :=
  (legal_iff.mp h).2.2.2.2.2 a ha

theorem regionOf_kbd {cfg : Config} (h : cfg.legal = true) : regionOf cfg cfg.portKbd = .kbd := by
  have := (port_range h (a := cfg.portKbd) (by simp [Config.ports])).1
  simp [regionOf, Nat.not_lt.mpr this]

theorem regionOf_kbdCr {cfg : Config} (h : cfg.legal = true) : regionOf cfg cfg.portKbdCr = .kbdCr := by
  have h1 := (port_range h (a := cfg.portKbdCr) (by simp [Config.ports])).1
  have h2 := (legal_iff.mp h).2.2.2.2.1
  simp only [Config.ports, List.nodup_cons, List.mem_cons, not_or] at h2
  simp [regionOf, Nat.not_lt.mpr h1, Ne.symm h2.1.1]

theorem regionOf_dsp {cfg : Config} (h : cfg.legal = true) : regionOf cfg cfg.portDsp = .dsp := by
  have h1 := (port_range h (a := cfg.portDsp) (by simp [Config.ports])).1
  have h2 := (legal_iff.mp h).2.2.2.2.1
  simp only [Config.ports, List.nodup_cons, List.mem_cons, not_or] at h2
  simp [regionOf, Nat.not_lt.mpr h1, Ne.symm h2.1.2.1, Ne.symm h2.2.1.1]

theorem regionOf_dspCr {cfg : Config} (h : cfg.legal = true) : regionOf cfg cfg.portDspCr = .dspCr := by
  have h1 := (port_range h (a := cfg.portDspCr) (by simp [Config.ports])).1
  have h2 := (legal_iff.mp h).2.2.2.2.1
  simp only [Config.ports, List.nodup_cons, List.mem_cons, not_or] at h2
  simp [regionOf, Nat.not_lt.mpr h1, Ne.symm h2.1.2.2.1, Ne.symm h2.2.1.2.1, Ne.symm h2.2.2.1.1]

/-- An address no port decodes is RAM, ROM, vector or unmapped. -/
theorem regionOf_noPort {cfg : Config} {a : Addr} (h : NoPort cfg a) :
    regionOf cfg a ≠ .kbd ∧ regionOf cfg a ≠ .kbdCr ∧ regionOf cfg a ≠ .dsp ∧ regionOf cfg a ≠ .dspCr := by
  rcases h with h | h
  · simp [regionOf_ram_iff.mpr h]
  · simp only [Config.ports, List.mem_cons, not_or] at h
    unfold regionOf
    repeat' split
    all_goals simp_all

/-- Outside RAM and the ports the decode goes by range alone (R76). -/
theorem regionOf_fixed {cfg : Config} {a : Addr} (h1 : cfg.ramSize ≤ a.toNat) (h2 : a ∉ cfg.ports) :
    regionOf cfg a =
      if 0xE000 ≤ a.toNat ∧ a.toNat ≤ 0xEFFF then .basic
      else if 0xFF00 ≤ a.toNat ∧ a.toNat ≤ 0xFFFB then .rom
      else if a = 0xFFFC#16 then .vectorLow
      else if a = 0xFFFD#16 then .vectorHigh
      else .unmapped := by
  simp only [Config.ports, List.mem_cons, not_or] at h2
  unfold regionOf
  rw [if_neg (Nat.not_lt.mpr h1), if_neg h2.1, if_neg h2.2.1, if_neg h2.2.2.1, if_neg h2.2.2.2.1]

/-- The ranges above RAM in a legal configuration hold no port and no RAM (R76). -/
theorem fixed_range {cfg : Config} (h : cfg.legal = true) {a : Addr}
    (ha : (0xE000 ≤ a.toNat ∧ a.toNat ≤ 0xEFFF) ∨ 0xFF00 ≤ a.toNat) : cfg.ramSize ≤ a.toNat ∧ a ∉ cfg.ports := by
  have hr := (legal_iff.mp h).1
  refine ⟨by omega, fun hm => ?_⟩
  have := port_range h hm
  omega

/-! ### Reads -/

/-- The side effect of a read as one update: the latch alone, and only at keyboard-data (R92, R101). -/
theorem touch_eq (s : State) (a : Addr) :
    touch s a =
      { s with keyboardLatch := if regionOf s.cfg a = .kbd then none else s.keyboardLatch } := by
  unfold touch
  split <;> simp_all [State.setLatch]

/-- A read at no keyboard-data port changes nothing. -/
theorem touch_of_ne {s : State} {a : Addr} (h : regionOf s.cfg a ≠ .kbd) : touch s a = s := by
  rw [touch_eq, if_neg h]

theorem touch_noPort {s : State} {a : Addr} (h : NoPort s.cfg a) : touch s a = s :=
  touch_of_ne (regionOf_noPort h).1

@[simp] theorem touch_cfg (s : State) (a : Addr) : (touch s a).cfg = s.cfg := by rw [touch_eq]
@[simp] theorem touch_a (s : State) (a : Addr) : (touch s a).a = s.a := by rw [touch_eq]
@[simp] theorem touch_x (s : State) (a : Addr) : (touch s a).x = s.x := by rw [touch_eq]
@[simp] theorem touch_y (s : State) (a : Addr) : (touch s a).y = s.y := by rw [touch_eq]
@[simp] theorem touch_sp (s : State) (a : Addr) : (touch s a).sp = s.sp := by rw [touch_eq]
@[simp] theorem touch_pc (s : State) (a : Addr) : (touch s a).pc = s.pc := by rw [touch_eq]
@[simp] theorem touch_p (s : State) (a : Addr) : (touch s a).p = s.p := by rw [touch_eq]
@[simp] theorem touch_ram (s : State) (a : Addr) : (touch s a).ram = s.ram := by rw [touch_eq]
@[simp] theorem touch_nextReady (s : State) (a : Addr) : (touch s a).nextReady = s.nextReady := by rw [touch_eq]
@[simp] theorem touch_clock (s : State) (a : Addr) : (touch s a).clock = s.clock := by rw [touch_eq]
@[simp] theorem touch_column (s : State) (a : Addr) : (touch s a).column = s.column := by rw [touch_eq]
@[simp] theorem touch_display (s : State) (a : Addr) : (touch s a).display = s.display := by rw [touch_eq]
@[simp] theorem touch_diag (s : State) (a : Addr) : (touch s a).diag = s.diag := by rw [touch_eq]
@[simp] theorem touch_cycles (s : State) (a : Addr) : (touch s a).cycles = s.cycles := by rw [touch_eq]
@[simp] theorem touch_trace (s : State) (a : Addr) : (touch s a).trace = s.trace := by rw [touch_eq]
@[simp] theorem touch_booted (s : State) (a : Addr) : (touch s a).booted = s.booted := by rw [touch_eq]
@[simp] theorem touch_faulted (s : State) (a : Addr) : (touch s a).faulted = s.faulted := by rw [touch_eq]
@[simp] theorem touch_agenda (s : State) (a : Addr) : (touch s a).agenda = s.agenda := by rw [touch_eq]
@[simp] theorem touch_replies (s : State) (a : Addr) : (touch s a).replies = s.replies := by rw [touch_eq]

theorem touch_keyboardLatch (s : State) (a : Addr) :
    (touch s a).keyboardLatch = s.keyboardLatch ∨ (touch s a).keyboardLatch = none := by
  rw [touch_eq]
  by_cases h : regionOf s.cfg a = .kbd <;> simp [h]

/-- A read sees the parameters, RAM, the latch, the timestamp and the clock, and nothing else of the state. -/
theorem peek_congr {s t : State} (a : Addr) (hc : t.cfg = s.cfg) (hr : t.ram = s.ram)
    (hl : t.keyboardLatch = s.keyboardLatch) (hn : t.nextReady = s.nextReady) (hk : t.clock = s.clock) :
    peek t a = peek s a := by
  simp [peek, kbdByte, kbdCrByte, dspCrByte, hc, hr, hl, hn, hk]

/-- At an address no port decodes a read sees the parameters and RAM alone. -/
theorem peek_noPort {s t : State} {a : Addr} (h : NoPort s.cfg a) (hc : t.cfg = s.cfg)
    (hr : Memory.get t.ram a.toNat = Memory.get s.ram a.toNat) : peek t a = peek s a := by
  obtain ⟨h1, h2, h3, h4⟩ := regionOf_noPort h
  unfold peek
  rw [hc]
  split <;> simp_all

/-- A RAM address reads the RAM list (R82). -/
theorem peek_ram {s : State} {a : Addr} (h : a.toNat < s.cfg.ramSize) : peek s a = Memory.get s.ram a.toNat := by
  simp [peek, regionOf_ram_iff.mpr h]

/-! ### Display output -/

theorem emitAndWrap_eq (s : State) (c : BitVec 7) :
    emitAndWrap s c =
      { s with
        display := (if s.cfg.windowWidth ≤ s.column + 1 then s.display ++ [.emitGlyph c] ++ [.advanceLine]
          else s.display ++ [.emitGlyph c])
        column := if s.cfg.windowWidth ≤ s.column + 1 then 0 else s.column + 1 } := by
  by_cases h : s.cfg.windowWidth ≤ s.column + 1 <;>
    simp [emitAndWrap, emitGlyph, advanceLine, State.callback, h]

/-- The character handling of a display-data write changes the display trace and the column, and nothing else. -/
theorem displayChar_eq (s : State) (c : BitVec 7) :
    displayChar s c = { s with display := (displayChar s c).display, column := (displayChar s c).column } := by
  unfold displayChar
  repeat' split
  all_goals first | rfl | simp [emitAndWrap_eq, erasePreviousColumn, State.callback]

@[simp] theorem displayChar_cfg (s : State) (c : BitVec 7) : (displayChar s c).cfg = s.cfg := by rw [displayChar_eq]
@[simp] theorem displayChar_a (s : State) (c : BitVec 7) : (displayChar s c).a = s.a := by rw [displayChar_eq]
@[simp] theorem displayChar_x (s : State) (c : BitVec 7) : (displayChar s c).x = s.x := by rw [displayChar_eq]
@[simp] theorem displayChar_y (s : State) (c : BitVec 7) : (displayChar s c).y = s.y := by rw [displayChar_eq]
@[simp] theorem displayChar_sp (s : State) (c : BitVec 7) : (displayChar s c).sp = s.sp := by rw [displayChar_eq]
@[simp] theorem displayChar_pc (s : State) (c : BitVec 7) : (displayChar s c).pc = s.pc := by rw [displayChar_eq]
@[simp] theorem displayChar_p (s : State) (c : BitVec 7) : (displayChar s c).p = s.p := by rw [displayChar_eq]
@[simp] theorem displayChar_ram (s : State) (c : BitVec 7) : (displayChar s c).ram = s.ram := by rw [displayChar_eq]
@[simp] theorem displayChar_keyboardLatch (s : State) (c : BitVec 7) : (displayChar s c).keyboardLatch = s.keyboardLatch := by rw [displayChar_eq]
@[simp] theorem displayChar_nextReady (s : State) (c : BitVec 7) : (displayChar s c).nextReady = s.nextReady := by rw [displayChar_eq]
@[simp] theorem displayChar_clock (s : State) (c : BitVec 7) : (displayChar s c).clock = s.clock := by rw [displayChar_eq]
@[simp] theorem displayChar_diag (s : State) (c : BitVec 7) : (displayChar s c).diag = s.diag := by rw [displayChar_eq]
@[simp] theorem displayChar_cycles (s : State) (c : BitVec 7) : (displayChar s c).cycles = s.cycles := by rw [displayChar_eq]
@[simp] theorem displayChar_trace (s : State) (c : BitVec 7) : (displayChar s c).trace = s.trace := by rw [displayChar_eq]
@[simp] theorem displayChar_booted (s : State) (c : BitVec 7) : (displayChar s c).booted = s.booted := by rw [displayChar_eq]
@[simp] theorem displayChar_faulted (s : State) (c : BitVec 7) : (displayChar s c).faulted = s.faulted := by rw [displayChar_eq]
@[simp] theorem displayChar_agenda (s : State) (c : BitVec 7) : (displayChar s c).agenda = s.agenda := by rw [displayChar_eq]
@[simp] theorem displayChar_replies (s : State) (c : BitVec 7) : (displayChar s c).replies = s.replies := by rw [displayChar_eq]

/-! ### Writes -/

@[simp] theorem writeByte_cfg (s : State) (a : Addr) (v : Byte) : (writeByte s a v).cfg = s.cfg := by
  unfold writeByte; split <;> simp [displayWrite]
@[simp] theorem writeByte_a (s : State) (a : Addr) (v : Byte) : (writeByte s a v).a = s.a := by
  unfold writeByte; split <;> simp [displayWrite]
@[simp] theorem writeByte_x (s : State) (a : Addr) (v : Byte) : (writeByte s a v).x = s.x := by
  unfold writeByte; split <;> simp [displayWrite]
@[simp] theorem writeByte_y (s : State) (a : Addr) (v : Byte) : (writeByte s a v).y = s.y := by
  unfold writeByte; split <;> simp [displayWrite]
@[simp] theorem writeByte_sp (s : State) (a : Addr) (v : Byte) : (writeByte s a v).sp = s.sp := by
  unfold writeByte; split <;> simp [displayWrite]
@[simp] theorem writeByte_pc (s : State) (a : Addr) (v : Byte) : (writeByte s a v).pc = s.pc := by
  unfold writeByte; split <;> simp [displayWrite]
@[simp] theorem writeByte_p (s : State) (a : Addr) (v : Byte) : (writeByte s a v).p = s.p := by
  unfold writeByte; split <;> simp [displayWrite]
@[simp] theorem writeByte_keyboardLatch (s : State) (a : Addr) (v : Byte) : (writeByte s a v).keyboardLatch = s.keyboardLatch := by
  unfold writeByte; split <;> simp [displayWrite]
@[simp] theorem writeByte_clock (s : State) (a : Addr) (v : Byte) : (writeByte s a v).clock = s.clock := by
  unfold writeByte; split <;> simp [displayWrite]
@[simp] theorem writeByte_cycles (s : State) (a : Addr) (v : Byte) : (writeByte s a v).cycles = s.cycles := by
  unfold writeByte; split <;> simp [displayWrite]
@[simp] theorem writeByte_trace (s : State) (a : Addr) (v : Byte) : (writeByte s a v).trace = s.trace := by
  unfold writeByte; split <;> simp [displayWrite]
@[simp] theorem writeByte_booted (s : State) (a : Addr) (v : Byte) : (writeByte s a v).booted = s.booted := by
  unfold writeByte; split <;> simp [displayWrite]
@[simp] theorem writeByte_faulted (s : State) (a : Addr) (v : Byte) : (writeByte s a v).faulted = s.faulted := by
  unfold writeByte; split <;> simp [displayWrite]
@[simp] theorem writeByte_agenda (s : State) (a : Addr) (v : Byte) : (writeByte s a v).agenda = s.agenda := by
  unfold writeByte; split <;> simp [displayWrite]
@[simp] theorem writeByte_replies (s : State) (a : Addr) (v : Byte) : (writeByte s a v).replies = s.replies := by
  unfold writeByte; split <;> simp [displayWrite]

/-- What a write does to RAM: one byte if the address is RAM, else nothing. -/
theorem writeByte_ram (s : State) (a : Addr) (v : Byte) :
    (writeByte s a v).ram = if a.toNat < s.cfg.ramSize then Memory.set s.ram a.toNat v else s.ram := by
  by_cases h : a.toNat < s.cfg.ramSize
  · simp [writeByte, regionOf_ram_iff.mpr h, h]
  · have : regionOf s.cfg a ≠ .ram := fun hr => h (regionOf_ram_iff.mp hr)
    rw [if_neg h]
    unfold writeByte
    split <;> simp_all [displayWrite]

/-- A write to RAM is one update of the RAM list. -/
theorem writeByte_of_ram {s : State} {a : Addr} (v : Byte) (h : a.toNat < s.cfg.ramSize) :
    writeByte s a v = s.setRam (Memory.set s.ram a.toNat v) := by
  simp [writeByte, regionOf_ram_iff.mpr h]

/-- A write keeps RAM's canonical form. -/
theorem writeByte_wf {s : State} (a : Addr) (v : Byte) (h : Memory.wf s.ram = true) :
    Memory.wf (writeByte s a v).ram = true := by
  rw [writeByte_ram]
  split
  · exact Memory.wf_set _ _ h
  · exact h

/-- Every byte of RAM but the one written to is as before. -/
theorem writeByte_get_of_ne {s : State} {a b : Addr} (v : Byte) (h : Memory.wf s.ram = true) (hb : b ≠ a) :
    Memory.get (writeByte s a v).ram b.toNat = Memory.get s.ram b.toNat := by
  rw [writeByte_ram]
  split
  · rw [Memory.get_set h, if_neg (fun he => hb (BitVec.eq_of_toNat_eq he))]
  · rfl

/-- A byte written to RAM reads back. -/
theorem peek_writeByte_same {s : State} {a : Addr} (v : Byte) (h : Memory.wf s.ram = true)
    (ha : a.toNat < s.cfg.ramSize) : peek (writeByte s a v) a = v := by
  simp [peek, regionOf_ram_iff.mpr ha, writeByte_ram, ha, Memory.get_set h]

/-- A write changes what no other address reads, unless that address is a port. -/
theorem peek_writeByte_of_ne {s : State} {a b : Addr} (v : Byte) (h : Memory.wf s.ram = true) (hb : b ≠ a)
    (hp : NoPort s.cfg b) : peek (writeByte s a v) b = peek s b :=
  peek_noPort hp (writeByte_cfg s a v) (writeByte_get_of_ne v h hb)

/-- A write outside RAM and the ports is only reported (R80). -/
theorem writeByte_rejected {s : State} {a : Addr} (v : Byte) (h1 : s.cfg.ramSize ≤ a.toNat) (h2 : a ∉ s.cfg.ports) :
    writeByte s a v = s.report (.writeRejected a v) := by
  have h3 := regionOf_noPort (.inr h2 : NoPort s.cfg a)
  have h4 : regionOf s.cfg a ≠ .ram := fun hr => absurd (regionOf_ram_iff.mp hr) (Nat.not_lt.mpr h1)
  unfold writeByte
  split <;> simp_all

/-! ### The stack -/

theorem stackAddr_toNat (sp : Byte) : (stackAddr sp).toNat = 0x100 + sp.toNat := by
  have := sp.isLt
  simp only [stackAddr, hiLo, BitVec.toNat_append]
  rw [Nat.shiftLeft_eq, ← Nat.shiftLeft_eq, ← Nat.shiftLeft_add_eq_or_of_lt (by simpa using this)]
  simp [Nat.shiftLeft_eq]

/-- A push is one write and one lowering of S. -/
theorem push_eq (s : State) (v : Byte) : push s v = (writeByte s (stackAddr s.sp) v).setSP (s.sp - 1#8) := by
  simp [push]

end Sys2Proof.Machine
end

