-- ==== Sys2Proof/Laws/Operands.lean ====
section
/-! SUPPORT. What addressing and operand reads can do: they change the keyboard latch at most, and only to clear it. -/

namespace Sys2Proof.Machine

/-- The effect of any number of reads: the latch as it was or cleared, nothing else. -/
def OnlyReads (s t : State) : Prop :=
  ∃ l, (l = s.keyboardLatch ∨ l = none) ∧ t = { s with keyboardLatch := l }

theorem OnlyReads.refl (s : State) : OnlyReads s s := ⟨s.keyboardLatch, .inl rfl, rfl⟩

theorem OnlyReads.trans {s t u : State} (h : OnlyReads s t) (h' : OnlyReads t u) : OnlyReads s u := by
  obtain ⟨l, hl, rfl⟩ := h
  obtain ⟨l', hl', rfl⟩ := h'
  refine ⟨l', ?_, rfl⟩
  rcases hl' with rfl | rfl
  · exact hl
  · exact .inr rfl

theorem touch_onlyReads (s : State) (a : Addr) : OnlyReads s (touch s a) :=
  ⟨_, touch_keyboardLatch s a, by rw [touch_eq]⟩

theorem readPointer_onlyReads (lo hi : Addr) (s : State) : OnlyReads s (readPointer lo hi s).st :=
  (touch_onlyReads s lo).trans (touch_onlyReads _ hi)

/-- `Resolve` makes reads only (R170). -/
theorem resolve_onlyReads (m : MemOperand) (s : State) : OnlyReads s (resolve m s).st := by
  cases m
  all_goals first
    | exact .refl s
    | exact readPointer_onlyReads _ _ s

/-- The operand of a read-class instruction is got by reads only (R186). -/
theorem readMemOperand_onlyReads (m : MemOperand) (s : State) : OnlyReads s (readMemOperand m s).st :=
  (resolve_onlyReads m s).trans (touch_onlyReads _ _)

theorem readOperand_onlyReads (o : ReadOperand) (s : State) : OnlyReads s (readOperand o s).st := by
  cases o with
  | imm b => exact .refl s
  | mem m => exact readMemOperand_onlyReads m s

theorem jumpTarget_onlyReads (t : JumpOperand) (s : State) : OnlyReads s (jumpTarget t s).st := by
  cases t with
  | abs w => exact .refl s
  | ind ptr => exact readPointer_onlyReads _ _ s

/-! The fields reads leave alone, one simp lemma each. -/

@[simp] theorem resolve_cfg (m : MemOperand) (s : State) : (resolve m s).st.cfg = s.cfg := by
  obtain ⟨l, -, h⟩ := resolve_onlyReads m s; rw [h]
@[simp] theorem resolve_a (m : MemOperand) (s : State) : (resolve m s).st.a = s.a := by
  obtain ⟨l, -, h⟩ := resolve_onlyReads m s; rw [h]
@[simp] theorem resolve_x (m : MemOperand) (s : State) : (resolve m s).st.x = s.x := by
  obtain ⟨l, -, h⟩ := resolve_onlyReads m s; rw [h]
@[simp] theorem resolve_y (m : MemOperand) (s : State) : (resolve m s).st.y = s.y := by
  obtain ⟨l, -, h⟩ := resolve_onlyReads m s; rw [h]
@[simp] theorem resolve_sp (m : MemOperand) (s : State) : (resolve m s).st.sp = s.sp := by
  obtain ⟨l, -, h⟩ := resolve_onlyReads m s; rw [h]
@[simp] theorem resolve_pc (m : MemOperand) (s : State) : (resolve m s).st.pc = s.pc := by
  obtain ⟨l, -, h⟩ := resolve_onlyReads m s; rw [h]
@[simp] theorem resolve_p (m : MemOperand) (s : State) : (resolve m s).st.p = s.p := by
  obtain ⟨l, -, h⟩ := resolve_onlyReads m s; rw [h]
@[simp] theorem resolve_ram (m : MemOperand) (s : State) : (resolve m s).st.ram = s.ram := by
  obtain ⟨l, -, h⟩ := resolve_onlyReads m s; rw [h]
@[simp] theorem resolve_nextReady (m : MemOperand) (s : State) : (resolve m s).st.nextReady = s.nextReady := by
  obtain ⟨l, -, h⟩ := resolve_onlyReads m s; rw [h]
@[simp] theorem resolve_clock (m : MemOperand) (s : State) : (resolve m s).st.clock = s.clock := by
  obtain ⟨l, -, h⟩ := resolve_onlyReads m s; rw [h]
@[simp] theorem resolve_column (m : MemOperand) (s : State) : (resolve m s).st.column = s.column := by
  obtain ⟨l, -, h⟩ := resolve_onlyReads m s; rw [h]
@[simp] theorem resolve_display (m : MemOperand) (s : State) : (resolve m s).st.display = s.display := by
  obtain ⟨l, -, h⟩ := resolve_onlyReads m s; rw [h]
@[simp] theorem resolve_diag (m : MemOperand) (s : State) : (resolve m s).st.diag = s.diag := by
  obtain ⟨l, -, h⟩ := resolve_onlyReads m s; rw [h]
@[simp] theorem resolve_cycles (m : MemOperand) (s : State) : (resolve m s).st.cycles = s.cycles := by
  obtain ⟨l, -, h⟩ := resolve_onlyReads m s; rw [h]
@[simp] theorem resolve_trace (m : MemOperand) (s : State) : (resolve m s).st.trace = s.trace := by
  obtain ⟨l, -, h⟩ := resolve_onlyReads m s; rw [h]
@[simp] theorem resolve_booted (m : MemOperand) (s : State) : (resolve m s).st.booted = s.booted := by
  obtain ⟨l, -, h⟩ := resolve_onlyReads m s; rw [h]
@[simp] theorem resolve_faulted (m : MemOperand) (s : State) : (resolve m s).st.faulted = s.faulted := by
  obtain ⟨l, -, h⟩ := resolve_onlyReads m s; rw [h]
@[simp] theorem resolve_agenda (m : MemOperand) (s : State) : (resolve m s).st.agenda = s.agenda := by
  obtain ⟨l, -, h⟩ := resolve_onlyReads m s; rw [h]
@[simp] theorem resolve_replies (m : MemOperand) (s : State) : (resolve m s).st.replies = s.replies := by
  obtain ⟨l, -, h⟩ := resolve_onlyReads m s; rw [h]

@[simp] theorem readMemOperand_cfg (m : MemOperand) (s : State) : (readMemOperand m s).st.cfg = s.cfg := by
  obtain ⟨l, -, h⟩ := readMemOperand_onlyReads m s; rw [h]
@[simp] theorem readMemOperand_a (m : MemOperand) (s : State) : (readMemOperand m s).st.a = s.a := by
  obtain ⟨l, -, h⟩ := readMemOperand_onlyReads m s; rw [h]
@[simp] theorem readMemOperand_x (m : MemOperand) (s : State) : (readMemOperand m s).st.x = s.x := by
  obtain ⟨l, -, h⟩ := readMemOperand_onlyReads m s; rw [h]
@[simp] theorem readMemOperand_y (m : MemOperand) (s : State) : (readMemOperand m s).st.y = s.y := by
  obtain ⟨l, -, h⟩ := readMemOperand_onlyReads m s; rw [h]
@[simp] theorem readMemOperand_sp (m : MemOperand) (s : State) : (readMemOperand m s).st.sp = s.sp := by
  obtain ⟨l, -, h⟩ := readMemOperand_onlyReads m s; rw [h]
@[simp] theorem readMemOperand_pc (m : MemOperand) (s : State) : (readMemOperand m s).st.pc = s.pc := by
  obtain ⟨l, -, h⟩ := readMemOperand_onlyReads m s; rw [h]
@[simp] theorem readMemOperand_p (m : MemOperand) (s : State) : (readMemOperand m s).st.p = s.p := by
  obtain ⟨l, -, h⟩ := readMemOperand_onlyReads m s; rw [h]
@[simp] theorem readMemOperand_ram (m : MemOperand) (s : State) : (readMemOperand m s).st.ram = s.ram := by
  obtain ⟨l, -, h⟩ := readMemOperand_onlyReads m s; rw [h]
@[simp] theorem readMemOperand_nextReady (m : MemOperand) (s : State) : (readMemOperand m s).st.nextReady = s.nextReady := by
  obtain ⟨l, -, h⟩ := readMemOperand_onlyReads m s; rw [h]
@[simp] theorem readMemOperand_clock (m : MemOperand) (s : State) : (readMemOperand m s).st.clock = s.clock := by
  obtain ⟨l, -, h⟩ := readMemOperand_onlyReads m s; rw [h]
@[simp] theorem readMemOperand_column (m : MemOperand) (s : State) : (readMemOperand m s).st.column = s.column := by
  obtain ⟨l, -, h⟩ := readMemOperand_onlyReads m s; rw [h]
@[simp] theorem readMemOperand_display (m : MemOperand) (s : State) : (readMemOperand m s).st.display = s.display := by
  obtain ⟨l, -, h⟩ := readMemOperand_onlyReads m s; rw [h]
@[simp] theorem readMemOperand_diag (m : MemOperand) (s : State) : (readMemOperand m s).st.diag = s.diag := by
  obtain ⟨l, -, h⟩ := readMemOperand_onlyReads m s; rw [h]
@[simp] theorem readMemOperand_cycles (m : MemOperand) (s : State) : (readMemOperand m s).st.cycles = s.cycles := by
  obtain ⟨l, -, h⟩ := readMemOperand_onlyReads m s; rw [h]
@[simp] theorem readMemOperand_trace (m : MemOperand) (s : State) : (readMemOperand m s).st.trace = s.trace := by
  obtain ⟨l, -, h⟩ := readMemOperand_onlyReads m s; rw [h]
@[simp] theorem readMemOperand_booted (m : MemOperand) (s : State) : (readMemOperand m s).st.booted = s.booted := by
  obtain ⟨l, -, h⟩ := readMemOperand_onlyReads m s; rw [h]
@[simp] theorem readMemOperand_faulted (m : MemOperand) (s : State) : (readMemOperand m s).st.faulted = s.faulted := by
  obtain ⟨l, -, h⟩ := readMemOperand_onlyReads m s; rw [h]
@[simp] theorem readMemOperand_agenda (m : MemOperand) (s : State) : (readMemOperand m s).st.agenda = s.agenda := by
  obtain ⟨l, -, h⟩ := readMemOperand_onlyReads m s; rw [h]
@[simp] theorem readMemOperand_replies (m : MemOperand) (s : State) : (readMemOperand m s).st.replies = s.replies := by
  obtain ⟨l, -, h⟩ := readMemOperand_onlyReads m s; rw [h]

@[simp] theorem readOperand_cfg (o : ReadOperand) (s : State) : (readOperand o s).st.cfg = s.cfg := by
  obtain ⟨l, -, h⟩ := readOperand_onlyReads o s; rw [h]
@[simp] theorem readOperand_a (o : ReadOperand) (s : State) : (readOperand o s).st.a = s.a := by
  obtain ⟨l, -, h⟩ := readOperand_onlyReads o s; rw [h]
@[simp] theorem readOperand_x (o : ReadOperand) (s : State) : (readOperand o s).st.x = s.x := by
  obtain ⟨l, -, h⟩ := readOperand_onlyReads o s; rw [h]
@[simp] theorem readOperand_y (o : ReadOperand) (s : State) : (readOperand o s).st.y = s.y := by
  obtain ⟨l, -, h⟩ := readOperand_onlyReads o s; rw [h]
@[simp] theorem readOperand_sp (o : ReadOperand) (s : State) : (readOperand o s).st.sp = s.sp := by
  obtain ⟨l, -, h⟩ := readOperand_onlyReads o s; rw [h]
@[simp] theorem readOperand_pc (o : ReadOperand) (s : State) : (readOperand o s).st.pc = s.pc := by
  obtain ⟨l, -, h⟩ := readOperand_onlyReads o s; rw [h]
@[simp] theorem readOperand_p (o : ReadOperand) (s : State) : (readOperand o s).st.p = s.p := by
  obtain ⟨l, -, h⟩ := readOperand_onlyReads o s; rw [h]
@[simp] theorem readOperand_ram (o : ReadOperand) (s : State) : (readOperand o s).st.ram = s.ram := by
  obtain ⟨l, -, h⟩ := readOperand_onlyReads o s; rw [h]
@[simp] theorem readOperand_nextReady (o : ReadOperand) (s : State) : (readOperand o s).st.nextReady = s.nextReady := by
  obtain ⟨l, -, h⟩ := readOperand_onlyReads o s; rw [h]
@[simp] theorem readOperand_clock (o : ReadOperand) (s : State) : (readOperand o s).st.clock = s.clock := by
  obtain ⟨l, -, h⟩ := readOperand_onlyReads o s; rw [h]
@[simp] theorem readOperand_column (o : ReadOperand) (s : State) : (readOperand o s).st.column = s.column := by
  obtain ⟨l, -, h⟩ := readOperand_onlyReads o s; rw [h]
@[simp] theorem readOperand_display (o : ReadOperand) (s : State) : (readOperand o s).st.display = s.display := by
  obtain ⟨l, -, h⟩ := readOperand_onlyReads o s; rw [h]
@[simp] theorem readOperand_diag (o : ReadOperand) (s : State) : (readOperand o s).st.diag = s.diag := by
  obtain ⟨l, -, h⟩ := readOperand_onlyReads o s; rw [h]
@[simp] theorem readOperand_cycles (o : ReadOperand) (s : State) : (readOperand o s).st.cycles = s.cycles := by
  obtain ⟨l, -, h⟩ := readOperand_onlyReads o s; rw [h]
@[simp] theorem readOperand_trace (o : ReadOperand) (s : State) : (readOperand o s).st.trace = s.trace := by
  obtain ⟨l, -, h⟩ := readOperand_onlyReads o s; rw [h]
@[simp] theorem readOperand_booted (o : ReadOperand) (s : State) : (readOperand o s).st.booted = s.booted := by
  obtain ⟨l, -, h⟩ := readOperand_onlyReads o s; rw [h]
@[simp] theorem readOperand_faulted (o : ReadOperand) (s : State) : (readOperand o s).st.faulted = s.faulted := by
  obtain ⟨l, -, h⟩ := readOperand_onlyReads o s; rw [h]
@[simp] theorem readOperand_agenda (o : ReadOperand) (s : State) : (readOperand o s).st.agenda = s.agenda := by
  obtain ⟨l, -, h⟩ := readOperand_onlyReads o s; rw [h]
@[simp] theorem readOperand_replies (o : ReadOperand) (s : State) : (readOperand o s).st.replies = s.replies := by
  obtain ⟨l, -, h⟩ := readOperand_onlyReads o s; rw [h]

end Sys2Proof.Machine
end

