-- ==== Sys2Proof/Laws/Effect.lean ====
section
/-! SUPPORT. Once for all: what an instruction, a CPU step and a host move can do to the parts of the state that no
instruction owns, and that each keeps the invariant. Whole-machine claims cite these instead of unfolding a step. -/

namespace Sys2Proof.Machine

/-- What an instruction's effect on the world outside the registers is limited to. -/
structure Effect (s t : State) : Prop where
  cfg     : t.cfg = s.cfg
  clock   : t.clock = s.clock
  booted  : t.booted = s.booted
  agenda  : t.agenda = s.agenda
  replies : t.replies = s.replies
  latch   : t.keyboardLatch = s.keyboardLatch ∨ t.keyboardLatch = none
  diag    : s.diag <+: t.diag
  display : s.display <+: t.display
  inv     : Inv s → Inv t

theorem Inv.congr {s t : State} (h : Inv s) (hc : t.cfg = s.cfg) (hr : t.ram = s.ram) (hk : t.column = s.column)
    (hn : t.nextReady = s.nextReady) (ht : t.clock = s.clock) : Inv t where
  legal := hc ▸ h.legal
  ramWf := hr ▸ h.ramWf
  ramIn := by rw [hr, hc]; exact h.ramIn
  column := by rw [hk, hc]; exact h.column
  ready := by rw [hn, hc, ht]; exact h.ready

theorem Effect.refl (s : State) : Effect s s :=
  ⟨rfl, rfl, rfl, rfl, rfl, .inl rfl, List.prefix_rfl, List.prefix_rfl, id⟩

theorem Effect.trans {s t u : State} (h : Effect s t) (h' : Effect t u) : Effect s u where
  cfg := h'.cfg.trans h.cfg
  clock := h'.clock.trans h.clock
  booted := h'.booted.trans h.booted
  agenda := h'.agenda.trans h.agenda
  replies := h'.replies.trans h.replies
  latch := by
    rcases h'.latch with e | e
    · rw [e]; exact h.latch
    · exact .inr e
  diag := h.diag.trans h'.diag
  display := h.display.trans h'.display
  inv hs := h'.inv (h.inv hs)

/-- Writing registers, flags, the cycle counter or the trace is an effect on nothing else. -/
theorem Effect.regs (s : State) (a x y sp : Byte) (pc : Addr) (p : Flags) (n : Nat) (tr : Trace) (f : Bool) :
    Effect s { s with a := a, x := x, y := y, sp := sp, pc := pc, p := p, cycles := n, trace := tr, faulted := f } :=
  ⟨rfl, rfl, rfl, rfl, rfl, .inl rfl, List.prefix_rfl, List.prefix_rfl, fun h => h.congr rfl rfl rfl rfl rfl⟩

theorem OnlyReads.effect {s t : State} (h : OnlyReads s t) : Effect s t := by
  obtain ⟨l, hl, rfl⟩ := h
  exact ⟨rfl, rfl, rfl, rfl, rfl, hl, List.prefix_rfl, List.prefix_rfl, fun h => h.congr rfl rfl rfl rfl rfl⟩

theorem report_effect (s : State) (e : DiagEvent) : Effect s (s.report e) :=
  ⟨rfl, rfl, rfl, rfl, rfl, .inl rfl, List.prefix_append _ _, List.prefix_rfl,
    fun h => h.congr rfl rfl rfl rfl rfl⟩

/-- A RAM store keeps RAM canonical and inside its range. -/
theorem setRam_inv {s : State} {a : Addr} (v : Byte) (h : Inv s) (ha : a.toNat < s.cfg.ramSize) :
    Inv (s.setRam (Memory.set s.ram a.toNat v)) where
  legal := h.legal
  ramWf := Memory.wf_set _ _ h.ramWf
  ramIn c hc := by
    rcases Memory.mem_set hc with hc | rfl
    · exact h.ramIn c hc
    · exact ha
  column := h.column
  ready := h.ready

theorem displayChar_display (s : State) (c : BitVec 7) : s.display <+: (displayChar s c).display := by
  have he : ∀ t : State, s.display <+: t.display → s.display <+: (emitAndWrap t c).display := by
    intro t ht
    rw [emitAndWrap_eq]
    dsimp only
    split
    · exact ht.trans ((List.prefix_append _ _).trans (List.prefix_append _ _))
    · exact ht.trans (List.prefix_append _ _)
  unfold displayChar
  repeat' split
  · exact List.prefix_append _ _
  · exact List.prefix_append _ _
  · exact he s List.prefix_rfl
  · exact he _ (List.prefix_append _ _)
  · exact he s List.prefix_rfl
  · exact List.prefix_rfl

/-- The cursor stays inside the window (R52, R103). -/
theorem displayChar_column {s : State} (c : BitVec 7) (h : s.column < s.cfg.windowWidth) :
    (displayChar s c).column < s.cfg.windowWidth := by
  have he : ∀ t : State, t.cfg = s.cfg → (emitAndWrap t c).column < s.cfg.windowWidth := by
    intro t ht
    rw [emitAndWrap_eq, ht]
    dsimp only
    split <;> omega
  unfold displayChar
  repeat' split
  · simp only [advanceLine, State.callback_column]; omega
  · simp only [erasePreviousColumn, State.callback_column]; omega
  · exact he s rfl
  · exact he _ rfl
  · exact he s rfl
  · exact h

theorem busyDelay_le (s : State) : busyDelay s ≤ s.cfg.displayDelay := by
  unfold busyDelay
  split <;> omega

theorem displayWrite_effect (s : State) (v : Byte) : Effect s (displayWrite s v) where
  cfg := by simp [displayWrite]
  clock := by simp [displayWrite]
  booted := by simp [displayWrite]
  agenda := by simp [displayWrite]
  replies := by simp [displayWrite]
  latch := .inl (by simp [displayWrite])
  diag := by simp [displayWrite]
  display := displayChar_display s _
  inv h :=
    { legal := by simpa [displayWrite] using h.legal
      ramWf := by simpa [displayWrite] using h.ramWf
      ramIn := by simpa [displayWrite] using h.ramIn
      column := by simpa [displayWrite] using displayChar_column _ h.column
      ready := by
        intro r hr
        have := busyDelay_le s
        simp only [displayWrite, State.setReady_nextReady, Option.some.injEq] at hr
        simp only [displayWrite, State.setReady_clock, State.setReady_cfg, displayChar_clock, displayChar_cfg]
        omega }

theorem writeByte_effect (s : State) (a : Addr) (v : Byte) : Effect s (writeByte s a v) := by
  by_cases hr : a.toNat < s.cfg.ramSize
  · rw [writeByte_of_ram v hr]
    exact ⟨rfl, rfl, rfl, rfl, rfl, .inl rfl, List.prefix_rfl, List.prefix_rfl, fun h => setRam_inv v h hr⟩
  · have : regionOf s.cfg a ≠ .ram := fun h => hr (regionOf_ram_iff.mp h)
    unfold writeByte
    split
    · contradiction
    · exact displayWrite_effect s v
    all_goals first
      | exact .refl s
      | exact report_effect s _

/-! ### Shared operations -/

theorem push_effect (s : State) (v : Byte) : Effect s (push s v) :=
  (writeByte_effect s _ v).trans (.regs _ _ _ _ _ _ _ _ _ _)

theorem pull_effect (s : State) : Effect s (pull s).st :=
  (Effect.regs s s.a s.x s.y (s.sp + 1#8) s.pc s.p s.cycles s.trace s.faulted).trans (touch_onlyReads _ _).effect

theorem pushWord_effect (s : State) (w : Addr) : Effect s (pushWord s w) :=
  (push_effect s _).trans (push_effect _ _)

theorem pullWord_effect (s : State) : Effect s (pullWord s).st :=
  (pull_effect s).trans (pull_effect _)

theorem readWord_onlyReads (a : Addr) (s : State) : OnlyReads s (readWord a s).st :=
  (touch_onlyReads s a).trans (touch_onlyReads _ _)

theorem trapEntry_effect (s : State) (ret : Addr) : Effect s (trapEntry s ret) :=
  ((pushWord_effect s ret).trans (push_effect _ _)).trans
    ((Effect.regs _ _ _ _ _ _ _ _ _ _).trans
      ((readWord_onlyReads _ _).effect.trans (.regs _ _ _ _ _ _ _ _ _ _)))

theorem trapReturn_effect (s : State) : Effect s (trapReturn s) :=
  (pull_effect s).trans ((Effect.regs _ _ _ _ _ _ _ _ _ _).trans
    ((pullWord_effect _).trans (.regs _ _ _ _ _ _ _ _ _ _)))

theorem store_effect (m : MemOperand) (v : Byte) (s : State) : Effect s (store m v s) :=
  (resolve_onlyReads m s).effect.trans ((writeByte_effect _ _ v).trans (.regs _ _ _ _ _ _ _ _ _ _))

theorem modifyMem_effect (m : MemOperand) (f : Byte → Byte) (s : State) : Effect s (modifyMem m f s).st :=
  ((resolve_onlyReads m s).trans (touch_onlyReads _ _)).effect.trans
    ((writeByte_effect _ _ _).trans (.regs _ _ _ _ _ _ _ _ _ _))

theorem modifyOperand_effect (o : ShiftOperand) (f : Byte → Byte) (s : State) : Effect s (modifyOperand o f s).st := by
  cases o with
  | acc => exact .regs _ _ _ _ _ _ _ _ _ _
  | mem m => exact modifyMem_effect m f s

theorem readThen_effect (o : ReadOperand) (s : State) (a x y : Byte) (p : Flags) (n : Nat) :
    Effect s { (readOperand o s).st with a := a, x := x, y := y, p := p, cycles := n } :=
  (readOperand_onlyReads o s).effect.trans (.regs _ _ _ _ _ _ _ _ _ _)

theorem branch_effect (c : Bool) (off : Byte) (s : State) : Effect s (branch c off s) := by
  unfold branch
  dsimp only
  split <;> exact .regs _ _ _ _ _ _ _ _ _ _

/-! ### Every instruction -/

/-- Every instruction completes, in every state, and this is all it can do outside the registers (R343, R400). -/
theorem exec_effect (i : Instr) (s : State) : ∃ t, exec i s = .next t ∧ Effect s t := by
  cases i
  case lda o => exact ⟨_, rfl, readThen_effect o s _ _ _ _ _⟩
  case ldx o => exact ⟨_, rfl, readThen_effect o s _ _ _ _ _⟩
  case ldy o => exact ⟨_, rfl, readThen_effect o s _ _ _ _ _⟩
  case adc o => exact ⟨_, rfl, readThen_effect o s _ _ _ _ _⟩
  case sbc o => exact ⟨_, rfl, readThen_effect o s _ _ _ _ _⟩
  case cmp o => exact ⟨_, rfl, readThen_effect o s _ _ _ _ _⟩
  case cpx o => exact ⟨_, rfl, readThen_effect o s _ _ _ _ _⟩
  case cpy o => exact ⟨_, rfl, readThen_effect o s _ _ _ _ _⟩
  case and o => exact ⟨_, rfl, readThen_effect o s _ _ _ _ _⟩
  case ora o => exact ⟨_, rfl, readThen_effect o s _ _ _ _ _⟩
  case eor o => exact ⟨_, rfl, readThen_effect o s _ _ _ _ _⟩
  case bit m =>
    exact ⟨_, rfl, (readMemOperand_onlyReads m s).effect.trans (.regs _ _ _ _ _ _ _ _ _ _)⟩
  case sta m => exact ⟨_, rfl, store_effect m _ s⟩
  case stx m => exact ⟨_, rfl, store_effect m _ s⟩
  case sty m => exact ⟨_, rfl, store_effect m _ s⟩
  case inc m => exact ⟨_, rfl, (modifyMem_effect m _ s).trans (.regs _ _ _ _ _ _ _ _ _ _)⟩
  case dec m => exact ⟨_, rfl, (modifyMem_effect m _ s).trans (.regs _ _ _ _ _ _ _ _ _ _)⟩
  case asl o => exact ⟨_, rfl, (modifyOperand_effect o _ s).trans (.regs _ _ _ _ _ _ _ _ _ _)⟩
  case lsr o => exact ⟨_, rfl, (modifyOperand_effect o _ s).trans (.regs _ _ _ _ _ _ _ _ _ _)⟩
  case rol o => exact ⟨_, rfl, (modifyOperand_effect o _ s).trans (.regs _ _ _ _ _ _ _ _ _ _)⟩
  case ror o => exact ⟨_, rfl, (modifyOperand_effect o _ s).trans (.regs _ _ _ _ _ _ _ _ _ _)⟩
  case pha => exact ⟨_, rfl, (push_effect s _).trans (.regs _ _ _ _ _ _ _ _ _ _)⟩
  case php => exact ⟨_, rfl, (push_effect s _).trans (.regs _ _ _ _ _ _ _ _ _ _)⟩
  case pla => exact ⟨_, rfl, (pull_effect s).trans (.regs _ _ _ _ _ _ _ _ _ _)⟩
  case plp => exact ⟨_, rfl, (pull_effect s).trans (.regs _ _ _ _ _ _ _ _ _ _)⟩
  case jmp t => exact ⟨_, rfl, (jumpTarget_onlyReads t s).effect.trans (.regs _ _ _ _ _ _ _ _ _ _)⟩
  case jsr w => exact ⟨_, rfl, (pushWord_effect s _).trans (.regs _ _ _ _ _ _ _ _ _ _)⟩
  case rts => exact ⟨_, rfl, (pullWord_effect s).trans (.regs _ _ _ _ _ _ _ _ _ _)⟩
  case brk => exact ⟨_, rfl, (trapEntry_effect s _).trans (.regs _ _ _ _ _ _ _ _ _ _)⟩
  case rti => exact ⟨_, rfl, (trapReturn_effect s).trans (.regs _ _ _ _ _ _ _ _ _ _)⟩
  case undefined op =>
    cases hp : s.cfg.illegalPolicy
    all_goals
      refine ⟨_, by simp only [exec, execUndefined, hp]; rfl, ?_⟩
      exact (report_effect s _).trans (.regs _ _ _ _ _ _ _ _ _ _)
  case bcc off => exact ⟨_, rfl, branch_effect _ off s⟩
  case bcs off => exact ⟨_, rfl, branch_effect _ off s⟩
  case beq off => exact ⟨_, rfl, branch_effect _ off s⟩
  case bne off => exact ⟨_, rfl, branch_effect _ off s⟩
  case bmi off => exact ⟨_, rfl, branch_effect _ off s⟩
  case bpl off => exact ⟨_, rfl, branch_effect _ off s⟩
  case bvc off => exact ⟨_, rfl, branch_effect _ off s⟩
  case bvs off => exact ⟨_, rfl, branch_effect _ off s⟩
  all_goals exact ⟨_, rfl, .regs _ _ _ _ _ _ _ _ _ _⟩

/-! ### The fetch and the CPU step -/

theorem fetchByte_effect (s : State) : Effect s (fetchByte s).st :=
  (touch_onlyReads s _).effect.trans (.regs _ _ _ _ _ _ _ _ _ _)

theorem fetchInstr_effect (s : State) : Effect s (fetchInstr s).st := by
  have h1 : Effect s ((fetchByte s).st.setTrace { lastPC := s.pc, lastOpcode := (fetchByte s).val }) :=
    (fetchByte_effect s).trans (.regs _ _ _ _ _ _ _ _ _ _)
  unfold fetchInstr
  dsimp only
  split
  · exact h1
  · exact h1
  · exact h1.trans (fetchByte_effect _)
  · exact h1.trans ((fetchByte_effect _).trans (fetchByte_effect _))

/-- A CPU step that answers a next state was taken by a running machine, and did what an instruction can do. -/
theorem cpuStep_effect {s t : State} (h : cpuStep s = .next t) :
    Running s ∧ exec (fetchInstr s).val (fetchInstr s).st = .next t ∧ Effect s t := by
  unfold cpuStep at h
  split at h
  · exact nomatch h
  · split at h
    · exact nomatch h
    · obtain ⟨u, hu, he⟩ := exec_effect (fetchInstr s).val (fetchInstr s).st
      rw [hu] at h
      cases h
      exact ⟨⟨by simp_all, by simp_all⟩, hu, (fetchInstr_effect s).trans he⟩

/-- A running machine's CPU step is its instruction's meaning after the fetch, and answers a next state. -/
theorem cpuStep_of_running {s : State} (h : Running s) :
    cpuStep s = exec (fetchInstr s).val (fetchInstr s).st := by
  simp [cpuStep, h.booted, h.healthy]

/-! ### Host moves -/

theorem resetMove_inv {s : State} (h : Inv s) : Inv (resetMove s) := by
  have hr : Inv (readWord 0xFFFC#16 s).st := (readWord_onlyReads _ s).effect.inv h
  exact hr.congr rfl rfl rfl rfl rfl

theorem bulkLoadMove_inv {s : State} (address : Nat) (bytes : List Byte) (h : Inv s) :
    Inv (bulkLoadMove s address bytes) := by
  unfold bulkLoadMove
  split
  · exact h.congr rfl rfl rfl rfl rfl
  · exact
      { legal := h.legal
        ramWf := Memory.wf_load _ _ h.ramWf
        ramIn := fun c hc => by
          have hc' : c ∈ Memory.load s.ram address bytes := hc
          show c.1 < s.cfg.ramSize
          rcases Memory.mem_load hc' with hc' | ⟨-, h2⟩
          · exact h.ramIn c hc'
          · omega
        column := h.column
        ready := h.ready }

theorem bulkSaveMove_inv {s : State} (first last : Nat) (h : Inv s) : Inv (bulkSaveMove s first last) := by
  unfold bulkSaveMove
  split <;> exact h.congr rfl rfl rfl rfl rfl

/-- Every move of the host or the clock keeps the invariant. -/
theorem hostMove_inv {s : State} (m : HostMove) (h : Inv s) : Inv (hostMove m s) := by
  cases m with
  | reset => exact resetMove_inv h
  | setKey c => exact h.congr rfl rfl rfl rfl rfl
  | read a => exact ((touch_onlyReads s a).effect.inv h).congr rfl rfl rfl rfl rfl
  | write a v => exact (writeByte_effect s a v).inv h
  | bulkLoad address bytes => exact bulkLoadMove_inv address bytes h
  | bulkSave first last => exact bulkSaveMove_inv first last h
  | advanceClock ticks =>
    refine ⟨h.legal, h.ramWf, h.ramIn, h.column, fun r hr => ?_⟩
    have := h.ready r hr
    show r ≤ s.clock + ticks + s.cfg.displayDelay
    omega

/-- Every move of the host or the clock leaves the parameters, the cycle counter, the faulted bit and the agenda alone,
and the logs grow at their ends. -/
theorem hostMove_frame (m : HostMove) (s : State) :
    (hostMove m s).cfg = s.cfg ∧ (hostMove m s).cycles = s.cycles ∧ (hostMove m s).faulted = s.faulted ∧
      (hostMove m s).agenda = s.agenda ∧ s.diag <+: (hostMove m s).diag ∧ s.display <+: (hostMove m s).display ∧
      (s.booted = true → (hostMove m s).booted = true) := by
  cases m with
  | reset =>
    obtain ⟨l, -, h⟩ := readWord_onlyReads 0xFFFC#16 s
    simp [hostMove, resetMove, h]
  | setKey c => simp [hostMove, setKeyMove]
  | read a => simp [hostMove, readMove, readByte]
  | write a v =>
    have h := writeByte_effect s a v
    exact ⟨h.cfg, by simp [hostMove, writeMove], by simp [hostMove, writeMove], h.agenda, h.diag, h.display,
      fun hb => h.booted.trans hb⟩
  | bulkLoad address bytes =>
    simp only [hostMove, bulkLoadMove]
    split <;> simp
  | bulkSave first last =>
    simp only [hostMove, bulkSaveMove]
    split <;> simp
  | advanceClock ticks => simp [hostMove, advanceClockMove]

/-- What a step is, by whose turn it is. -/
theorem step_cases (s : State) :
    (CpuTurn s ∧ step s = cpuStep (turnTaken s)) ∨
    (∃ m rest, s.agenda = .host m :: rest ∧ step s = .next (hostMove m (turnTaken s))) := by
  unfold step CpuTurn turnTaken
  cases ha : s.agenda with
  | nil =>
    left
    have : s.setAgenda [] = s := by cases s; simp_all [State.setAgenda]
    simp [this]
  | cons m rest =>
    cases m with
    | cpu => left; simp
    | host m => right; exact ⟨m, rest, rfl, by simp⟩

end Sys2Proof.Machine
end

