-- ==== Sys2Proof/Laws/Fetch.lean ====
section
/-! SUPPORT. The opcode table as the decoder and the fetch use it: which bytes are undefined, and what the fetch does
for each of the three formats. -/

namespace Sys2Proof

/-- The opcode bytes of the opcode map, as numbers. -/
def documentedBytes : List Nat :=
  [0x00, 0x01, 0x05, 0x06, 0x08, 0x09, 0x0A, 0x0D, 0x0E] ++
  [0x10, 0x11, 0x15, 0x16, 0x18, 0x19, 0x1D, 0x1E] ++
  [0x20, 0x21, 0x24, 0x25, 0x26, 0x28, 0x29, 0x2A, 0x2C, 0x2D, 0x2E] ++
  [0x30, 0x31, 0x35, 0x36, 0x38, 0x39, 0x3D, 0x3E] ++
  [0x40, 0x41, 0x45, 0x46, 0x48, 0x49, 0x4A, 0x4C, 0x4D, 0x4E] ++
  [0x50, 0x51, 0x55, 0x56, 0x58, 0x59, 0x5D, 0x5E] ++
  [0x60, 0x61, 0x65, 0x66, 0x68, 0x69, 0x6A, 0x6C, 0x6D, 0x6E] ++
  [0x70, 0x71, 0x75, 0x76, 0x78, 0x79, 0x7D, 0x7E] ++
  [0x81, 0x84, 0x85, 0x86, 0x88, 0x8A, 0x8C, 0x8D, 0x8E] ++
  [0x90, 0x91, 0x94, 0x95, 0x96, 0x98, 0x99, 0x9A, 0x9D] ++
  [0xA0, 0xA1, 0xA2, 0xA4, 0xA5, 0xA6, 0xA8, 0xA9, 0xAA, 0xAC, 0xAD, 0xAE] ++
  [0xB0, 0xB1, 0xB4, 0xB5, 0xB6, 0xB8, 0xB9, 0xBA, 0xBC, 0xBD, 0xBE] ++
  [0xC0, 0xC1, 0xC4, 0xC5, 0xC6, 0xC8, 0xC9, 0xCA, 0xCC, 0xCD, 0xCE] ++
  [0xD0, 0xD1, 0xD5, 0xD6, 0xD8, 0xD9, 0xDD, 0xDE] ++
  [0xE0, 0xE1, 0xE4, 0xE5, 0xE6, 0xE8, 0xE9, 0xEA, 0xEC, 0xED, 0xEE] ++
  [0xF0, 0xF1, 0xF5, 0xF6, 0xF8, 0xF9, 0xFD, 0xFE]

/-- The undefined opcode bytes, as numbers. -/
def undefinedBytes : List Nat :=
  [0x02, 0x03, 0x04, 0x07, 0x0B, 0x0C, 0x0F] ++
  [0x12, 0x13, 0x14, 0x17, 0x1A, 0x1B, 0x1C, 0x1F] ++
  [0x22, 0x23, 0x27, 0x2B, 0x2F] ++
  [0x32, 0x33, 0x34, 0x37, 0x3A, 0x3B, 0x3C, 0x3F] ++
  [0x42, 0x43, 0x44, 0x47, 0x4B, 0x4F] ++
  [0x52, 0x53, 0x54, 0x57, 0x5A, 0x5B, 0x5C, 0x5F] ++
  [0x62, 0x63, 0x64, 0x67, 0x6B, 0x6F] ++
  [0x72, 0x73, 0x74, 0x77, 0x7A, 0x7B, 0x7C, 0x7F] ++
  [0x80, 0x82, 0x83, 0x87, 0x89, 0x8B, 0x8F] ++
  [0x92, 0x93, 0x97, 0x9B, 0x9C, 0x9E, 0x9F] ++
  [0xA3, 0xA7, 0xAB, 0xAF] ++
  [0xB2, 0xB3, 0xB7, 0xBB, 0xBF] ++
  [0xC2, 0xC3, 0xC7, 0xCB, 0xCF] ++
  [0xD2, 0xD3, 0xD4, 0xD7, 0xDA, 0xDB, 0xDC, 0xDF] ++
  [0xE2, 0xE3, 0xE7, 0xEB, 0xEF] ++
  [0xF2, 0xF3, 0xF4, 0xF7, 0xFA, 0xFB, 0xFC, 0xFF]

theorem opcodeMap_keys : opcodeMap.map (fun row => row.1.toNat) = documentedBytes := by
  decide +kernel

theorem undefinedOpcodes_bytes : undefinedOpcodes.map BitVec.toNat = undefinedBytes := by decide +kernel

/-- A list of numbers as a set of bits. -/
def bitSet (l : List Nat) : Nat := l.foldr (fun k m => 2 ^ k ^^^ m) 0

/-- A bit of the set tells membership, in a list without repeats. -/
theorem testBit_bitSet {l : List Nat} (hl : l.Nodup) (n : Nat) : (bitSet l).testBit n = decide (n ∈ l) := by
  induction l with
  | nil => simp [bitSet]
  | cons k l ih =>
    obtain ⟨hk, hl⟩ := List.nodup_cons.mp hl
    have hs : (bitSet (k :: l)).testBit n = ((2 ^ k).testBit n ^^ (bitSet l).testBit n) := Nat.testBit_xor _ _ _
    rw [hs, ih hl, Nat.testBit_two_pow]
    by_cases h : k = n
    · subst h
      simp [hk]
    · simp [h, Ne.symm h]

/-- Every byte stands in exactly one of the two lists. -/
theorem bytes_split {n : Nat} (h : n < 256) : n ∈ documentedBytes ↔ n ∉ undefinedBytes := by
  have key : bitSet documentedBytes ^^^ bitSet undefinedBytes = 2 ^ 256 - 1 := by decide +kernel
  have hb := congrArg (Nat.testBit · n) key
  simp only [Nat.testBit_xor, Nat.testBit_two_pow_sub_one, h, decide_true,
    testBit_bitSet (show documentedBytes.Nodup by decide +kernel),
    testBit_bitSet (show undefinedBytes.Nodup by decide +kernel)] at hb
  by_cases hd : n ∈ documentedBytes <;> by_cases hu : n ∈ undefinedBytes <;> simp_all

theorem mem_undefinedOpcodes_iff (op : Byte) : op ∈ undefinedOpcodes ↔ op.toNat ∈ undefinedBytes := by
  rw [← undefinedOpcodes_bytes, List.mem_map]
  constructor
  · exact fun h => ⟨op, h, rfl⟩
  · rintro ⟨x, hx, he⟩
    rwa [← BitVec.eq_of_toNat_eq he]

theorem shapeOf_eq_none_iff (op : Byte) : shapeOf op = none ↔ op.toNat ∉ documentedBytes := by
  rw [shapeOf, List.lookup_eq_none_iff, ← opcodeMap_keys, List.mem_map]
  constructor
  · rintro h ⟨row, hr, he⟩
    exact absurd (BitVec.eq_of_toNat_eq he.symm) (by simpa using h row hr)
  · intro h row hr
    have hne : op ≠ row.1 := fun he => h ⟨row, hr, by rw [he]⟩
    simpa using hne

/-- A byte has no row in the opcode map exactly if it is an undefined opcode (R146). -/
theorem shapeOf_eq_none_iff_undefined (op : Byte) : shapeOf op = none ↔ op ∈ undefinedOpcodes := by
  have h := bytes_split op.isLt
  rw [shapeOf_eq_none_iff, mem_undefinedOpcodes_iff, h, not_not]

theorem shapeOf_undefined {op : Byte} (h : op ∈ undefinedOpcodes) : shapeOf op = none :=
  (shapeOf_eq_none_iff_undefined op).mpr h

theorem shapeOf_defined {op : Byte} (h : op ∉ undefinedOpcodes) : ∃ sh, shapeOf op = some sh :=
  Option.ne_none_iff_exists'.mp (fun hn => h ((shapeOf_eq_none_iff_undefined op).mp hn))

/-- What `shapeOf` gives stands in the opcode map. -/
theorem mem_opcodeMap {op : Byte} {sh : Shape} (h : shapeOf op = some sh) : (op, sh) ∈ opcodeMap := by
  obtain ⟨l₁, l₂, h, -⟩ := List.lookup_eq_some_iff.mp h
  rw [h]
  simp

theorem decode_of_undefined {op : Byte} (h : shapeOf op = none) (rest : List Byte) :
    decode (op :: rest) = .ok (.undefined op, rest) := by
  simp [decode, h]

theorem decode_of_one {op : Byte} {i : Instr} (h : shapeOf op = some (.one i)) (rest : List Byte) :
    decode (op :: rest) = .ok (i, rest) := by
  simp [decode, h]

theorem decode_of_two {op b : Byte} {f : Byte → Instr} (h : shapeOf op = some (.two f)) (rest : List Byte) :
    decode (op :: b :: rest) = .ok (f b, rest) := by
  simp [decode, h]

theorem decode_of_three {op b1 b2 : Byte} {f : Addr → Instr} (h : shapeOf op = some (.three f)) (rest : List Byte) :
    decode (op :: b1 :: b2 :: rest) = .ok (f (hiLo b2 b1), rest) := by
  simp [decode, h]

namespace Machine

/-- The opcode trace is not part of what a fetch sees. -/
theorem fetchByte_setTrace (s : State) (t : Trace) :
    fetchByte (s.setTrace t) = { val := (fetchByte s).val, st := (fetchByte s).st.setTrace t } := by
  simp only [fetchByte, readByte, State.setTrace, touch_eq, State.setPC]
  congr 1

/-- The opcode trace of the instruction at PC (R340). -/
def traceAt (s : State) : Trace := { lastPC := s.pc, lastOpcode := (fetchByte s).val }

theorem fetchInstr_undefined {s : State} (h : shapeOf (fetchByte s).val = none) :
    fetchInstr s = { val := .undefined (fetchByte s).val, st := (fetchByte s).st.setTrace (traceAt s) } := by
  simp only [fetchInstr, h]
  rfl

theorem fetchInstr_one {s : State} {i : Instr} (h : shapeOf (fetchByte s).val = some (.one i)) :
    fetchInstr s = { val := i, st := (fetchByte s).st.setTrace (traceAt s) } := by
  simp only [fetchInstr, h]
  rfl

theorem fetchInstr_two {s : State} {f : Byte → Instr} (h : shapeOf (fetchByte s).val = some (.two f)) :
    fetchInstr s =
      { val := f (fetchByte (fetchByte s).st).val
        st := (fetchByte (fetchByte s).st).st.setTrace (traceAt s) } := by
  simp only [fetchInstr, h, fetchByte_setTrace]
  rfl

theorem fetchInstr_three {s : State} {f : Addr → Instr} (h : shapeOf (fetchByte s).val = some (.three f)) :
    fetchInstr s =
      { val := f (hiLo (fetchByte (fetchByte (fetchByte s).st).st).val (fetchByte (fetchByte s).st).val)
        st := (fetchByte (fetchByte (fetchByte s).st).st).st.setTrace (traceAt s) } := by
  simp only [fetchInstr, h, fetchByte_setTrace]
  rfl

/-- A fetch from no port reads memory at PC and moves PC on, nothing else. -/
theorem fetchByte_noPort {s : State} (h : NoPort s.cfg s.pc) :
    fetchByte s = { val := peek s s.pc, st := s.setPC (s.pc + 1#16) } := by
  simp only [fetchByte, readByte, touch_noPort h]

end Machine

end Sys2Proof
end

