-- ==== Sys2Proof/Laws/Frame.lean ====
section
/-! SUPPORT. What each shared operation leaves alone: one simp lemma per operation and field, so that the frame of an
instruction follows without unfolding the operation. -/

namespace Sys2Proof.Machine

/-! ### `push`: one write and S -/

@[simp] theorem push_cfg (v : Byte) (s : State) : (push s v).cfg = s.cfg := by
  simp [push]
@[simp] theorem push_a (v : Byte) (s : State) : (push s v).a = s.a := by
  simp [push]
@[simp] theorem push_x (v : Byte) (s : State) : (push s v).x = s.x := by
  simp [push]
@[simp] theorem push_y (v : Byte) (s : State) : (push s v).y = s.y := by
  simp [push]
@[simp] theorem push_pc (v : Byte) (s : State) : (push s v).pc = s.pc := by
  simp [push]
@[simp] theorem push_p (v : Byte) (s : State) : (push s v).p = s.p := by
  simp [push]
@[simp] theorem push_keyboardLatch (v : Byte) (s : State) : (push s v).keyboardLatch = s.keyboardLatch := by
  simp [push]
@[simp] theorem push_clock (v : Byte) (s : State) : (push s v).clock = s.clock := by
  simp [push]
@[simp] theorem push_cycles (v : Byte) (s : State) : (push s v).cycles = s.cycles := by
  simp [push]
@[simp] theorem push_trace (v : Byte) (s : State) : (push s v).trace = s.trace := by
  simp [push]
@[simp] theorem push_booted (v : Byte) (s : State) : (push s v).booted = s.booted := by
  simp [push]
@[simp] theorem push_faulted (v : Byte) (s : State) : (push s v).faulted = s.faulted := by
  simp [push]
@[simp] theorem push_agenda (v : Byte) (s : State) : (push s v).agenda = s.agenda := by
  simp [push]
@[simp] theorem push_replies (v : Byte) (s : State) : (push s v).replies = s.replies := by
  simp [push]

@[simp] theorem push_sp (v : Byte) (s : State) : (push s v).sp = s.sp - 1#8 := by
  simp [push]

/-! ### `pull`: one read and S -/

@[simp] theorem pull_cfg  (s : State) : ((pull s).st).cfg = s.cfg := by
  simp [pull, readByte]
@[simp] theorem pull_a  (s : State) : ((pull s).st).a = s.a := by
  simp [pull, readByte]
@[simp] theorem pull_x  (s : State) : ((pull s).st).x = s.x := by
  simp [pull, readByte]
@[simp] theorem pull_y  (s : State) : ((pull s).st).y = s.y := by
  simp [pull, readByte]
@[simp] theorem pull_pc  (s : State) : ((pull s).st).pc = s.pc := by
  simp [pull, readByte]
@[simp] theorem pull_p  (s : State) : ((pull s).st).p = s.p := by
  simp [pull, readByte]
@[simp] theorem pull_ram  (s : State) : ((pull s).st).ram = s.ram := by
  simp [pull, readByte]
@[simp] theorem pull_nextReady  (s : State) : ((pull s).st).nextReady = s.nextReady := by
  simp [pull, readByte]
@[simp] theorem pull_clock  (s : State) : ((pull s).st).clock = s.clock := by
  simp [pull, readByte]
@[simp] theorem pull_column  (s : State) : ((pull s).st).column = s.column := by
  simp [pull, readByte]
@[simp] theorem pull_display  (s : State) : ((pull s).st).display = s.display := by
  simp [pull, readByte]
@[simp] theorem pull_diag  (s : State) : ((pull s).st).diag = s.diag := by
  simp [pull, readByte]
@[simp] theorem pull_cycles  (s : State) : ((pull s).st).cycles = s.cycles := by
  simp [pull, readByte]
@[simp] theorem pull_trace  (s : State) : ((pull s).st).trace = s.trace := by
  simp [pull, readByte]
@[simp] theorem pull_booted  (s : State) : ((pull s).st).booted = s.booted := by
  simp [pull, readByte]
@[simp] theorem pull_faulted  (s : State) : ((pull s).st).faulted = s.faulted := by
  simp [pull, readByte]
@[simp] theorem pull_agenda  (s : State) : ((pull s).st).agenda = s.agenda := by
  simp [pull, readByte]
@[simp] theorem pull_replies  (s : State) : ((pull s).st).replies = s.replies := by
  simp [pull, readByte]

@[simp] theorem pull_sp (s : State) : (pull s).st.sp = s.sp + 1#8 := by
  simp [pull, readByte]

/-! ### `pushWord`: two pushes -/

@[simp] theorem pushWord_cfg (w : Addr) (s : State) : (pushWord s w).cfg = s.cfg := by
  simp [pushWord]
@[simp] theorem pushWord_a (w : Addr) (s : State) : (pushWord s w).a = s.a := by
  simp [pushWord]
@[simp] theorem pushWord_x (w : Addr) (s : State) : (pushWord s w).x = s.x := by
  simp [pushWord]
@[simp] theorem pushWord_y (w : Addr) (s : State) : (pushWord s w).y = s.y := by
  simp [pushWord]
@[simp] theorem pushWord_pc (w : Addr) (s : State) : (pushWord s w).pc = s.pc := by
  simp [pushWord]
@[simp] theorem pushWord_p (w : Addr) (s : State) : (pushWord s w).p = s.p := by
  simp [pushWord]
@[simp] theorem pushWord_keyboardLatch (w : Addr) (s : State) : (pushWord s w).keyboardLatch = s.keyboardLatch := by
  simp [pushWord]
@[simp] theorem pushWord_clock (w : Addr) (s : State) : (pushWord s w).clock = s.clock := by
  simp [pushWord]
@[simp] theorem pushWord_cycles (w : Addr) (s : State) : (pushWord s w).cycles = s.cycles := by
  simp [pushWord]
@[simp] theorem pushWord_trace (w : Addr) (s : State) : (pushWord s w).trace = s.trace := by
  simp [pushWord]
@[simp] theorem pushWord_booted (w : Addr) (s : State) : (pushWord s w).booted = s.booted := by
  simp [pushWord]
@[simp] theorem pushWord_faulted (w : Addr) (s : State) : (pushWord s w).faulted = s.faulted := by
  simp [pushWord]
@[simp] theorem pushWord_agenda (w : Addr) (s : State) : (pushWord s w).agenda = s.agenda := by
  simp [pushWord]
@[simp] theorem pushWord_replies (w : Addr) (s : State) : (pushWord s w).replies = s.replies := by
  simp [pushWord]

@[simp] theorem pushWord_sp (w : Addr) (s : State) : (pushWord s w).sp = s.sp - 2#8 := by
  simp only [pushWord, push_sp]
  bv_omega

/-! ### `pullWord`: two pulls -/

@[simp] theorem pullWord_cfg  (s : State) : ((pullWord s).st).cfg = s.cfg := by
  simp [pullWord]
@[simp] theorem pullWord_a  (s : State) : ((pullWord s).st).a = s.a := by
  simp [pullWord]
@[simp] theorem pullWord_x  (s : State) : ((pullWord s).st).x = s.x := by
  simp [pullWord]
@[simp] theorem pullWord_y  (s : State) : ((pullWord s).st).y = s.y := by
  simp [pullWord]
@[simp] theorem pullWord_pc  (s : State) : ((pullWord s).st).pc = s.pc := by
  simp [pullWord]
@[simp] theorem pullWord_p  (s : State) : ((pullWord s).st).p = s.p := by
  simp [pullWord]
@[simp] theorem pullWord_ram  (s : State) : ((pullWord s).st).ram = s.ram := by
  simp [pullWord]
@[simp] theorem pullWord_nextReady  (s : State) : ((pullWord s).st).nextReady = s.nextReady := by
  simp [pullWord]
@[simp] theorem pullWord_clock  (s : State) : ((pullWord s).st).clock = s.clock := by
  simp [pullWord]
@[simp] theorem pullWord_column  (s : State) : ((pullWord s).st).column = s.column := by
  simp [pullWord]
@[simp] theorem pullWord_display  (s : State) : ((pullWord s).st).display = s.display := by
  simp [pullWord]
@[simp] theorem pullWord_diag  (s : State) : ((pullWord s).st).diag = s.diag := by
  simp [pullWord]
@[simp] theorem pullWord_cycles  (s : State) : ((pullWord s).st).cycles = s.cycles := by
  simp [pullWord]
@[simp] theorem pullWord_trace  (s : State) : ((pullWord s).st).trace = s.trace := by
  simp [pullWord]
@[simp] theorem pullWord_booted  (s : State) : ((pullWord s).st).booted = s.booted := by
  simp [pullWord]
@[simp] theorem pullWord_faulted  (s : State) : ((pullWord s).st).faulted = s.faulted := by
  simp [pullWord]
@[simp] theorem pullWord_agenda  (s : State) : ((pullWord s).st).agenda = s.agenda := by
  simp [pullWord]
@[simp] theorem pullWord_replies  (s : State) : ((pullWord s).st).replies = s.replies := by
  simp [pullWord]

@[simp] theorem pullWord_sp (s : State) : (pullWord s).st.sp = s.sp + 2#8 := by
  simp only [pullWord, pull_sp]
  bv_omega

/-! ### `readWord`: two reads -/

@[simp] theorem readWord_cfg (a : Addr) (s : State) : ((readWord a s).st).cfg = s.cfg := by
  simp [readWord, readByte]
@[simp] theorem readWord_a (a : Addr) (s : State) : ((readWord a s).st).a = s.a := by
  simp [readWord, readByte]
@[simp] theorem readWord_x (a : Addr) (s : State) : ((readWord a s).st).x = s.x := by
  simp [readWord, readByte]
@[simp] theorem readWord_y (a : Addr) (s : State) : ((readWord a s).st).y = s.y := by
  simp [readWord, readByte]
@[simp] theorem readWord_sp (a : Addr) (s : State) : ((readWord a s).st).sp = s.sp := by
  simp [readWord, readByte]
@[simp] theorem readWord_pc (a : Addr) (s : State) : ((readWord a s).st).pc = s.pc := by
  simp [readWord, readByte]
@[simp] theorem readWord_p (a : Addr) (s : State) : ((readWord a s).st).p = s.p := by
  simp [readWord, readByte]
@[simp] theorem readWord_ram (a : Addr) (s : State) : ((readWord a s).st).ram = s.ram := by
  simp [readWord, readByte]
@[simp] theorem readWord_nextReady (a : Addr) (s : State) : ((readWord a s).st).nextReady = s.nextReady := by
  simp [readWord, readByte]
@[simp] theorem readWord_clock (a : Addr) (s : State) : ((readWord a s).st).clock = s.clock := by
  simp [readWord, readByte]
@[simp] theorem readWord_column (a : Addr) (s : State) : ((readWord a s).st).column = s.column := by
  simp [readWord, readByte]
@[simp] theorem readWord_display (a : Addr) (s : State) : ((readWord a s).st).display = s.display := by
  simp [readWord, readByte]
@[simp] theorem readWord_diag (a : Addr) (s : State) : ((readWord a s).st).diag = s.diag := by
  simp [readWord, readByte]
@[simp] theorem readWord_cycles (a : Addr) (s : State) : ((readWord a s).st).cycles = s.cycles := by
  simp [readWord, readByte]
@[simp] theorem readWord_trace (a : Addr) (s : State) : ((readWord a s).st).trace = s.trace := by
  simp [readWord, readByte]
@[simp] theorem readWord_booted (a : Addr) (s : State) : ((readWord a s).st).booted = s.booted := by
  simp [readWord, readByte]
@[simp] theorem readWord_faulted (a : Addr) (s : State) : ((readWord a s).st).faulted = s.faulted := by
  simp [readWord, readByte]
@[simp] theorem readWord_agenda (a : Addr) (s : State) : ((readWord a s).st).agenda = s.agenda := by
  simp [readWord, readByte]
@[simp] theorem readWord_replies (a : Addr) (s : State) : ((readWord a s).st).replies = s.replies := by
  simp [readWord, readByte]

/-! ### `trapEntry`: three pushes, I, and the vector -/

@[simp] theorem trapEntry_cfg (ret : Addr) (s : State) : (trapEntry s ret).cfg = s.cfg := by
  simp [trapEntry]
@[simp] theorem trapEntry_a (ret : Addr) (s : State) : (trapEntry s ret).a = s.a := by
  simp [trapEntry]
@[simp] theorem trapEntry_x (ret : Addr) (s : State) : (trapEntry s ret).x = s.x := by
  simp [trapEntry]
@[simp] theorem trapEntry_y (ret : Addr) (s : State) : (trapEntry s ret).y = s.y := by
  simp [trapEntry]
@[simp] theorem trapEntry_clock (ret : Addr) (s : State) : (trapEntry s ret).clock = s.clock := by
  simp [trapEntry]
@[simp] theorem trapEntry_cycles (ret : Addr) (s : State) : (trapEntry s ret).cycles = s.cycles := by
  simp [trapEntry]
@[simp] theorem trapEntry_trace (ret : Addr) (s : State) : (trapEntry s ret).trace = s.trace := by
  simp [trapEntry]
@[simp] theorem trapEntry_booted (ret : Addr) (s : State) : (trapEntry s ret).booted = s.booted := by
  simp [trapEntry]
@[simp] theorem trapEntry_faulted (ret : Addr) (s : State) : (trapEntry s ret).faulted = s.faulted := by
  simp [trapEntry]
@[simp] theorem trapEntry_agenda (ret : Addr) (s : State) : (trapEntry s ret).agenda = s.agenda := by
  simp [trapEntry]
@[simp] theorem trapEntry_replies (ret : Addr) (s : State) : (trapEntry s ret).replies = s.replies := by
  simp [trapEntry]

@[simp] theorem trapEntry_sp (ret : Addr) (s : State) : (trapEntry s ret).sp = s.sp - 3#8 := by
  simp only [trapEntry, State.setPC_sp, readWord_sp, State.setP_sp, push_sp, pushWord_sp]
  bv_omega

@[simp] theorem trapEntry_p (ret : Addr) (s : State) : (trapEntry s ret).p = { s.p with i := true } := by
  simp [trapEntry]

/-! ### `trapReturn`: three pulls -/

@[simp] theorem trapReturn_cfg  (s : State) : (trapReturn s).cfg = s.cfg := by
  simp [trapReturn]
@[simp] theorem trapReturn_a  (s : State) : (trapReturn s).a = s.a := by
  simp [trapReturn]
@[simp] theorem trapReturn_x  (s : State) : (trapReturn s).x = s.x := by
  simp [trapReturn]
@[simp] theorem trapReturn_y  (s : State) : (trapReturn s).y = s.y := by
  simp [trapReturn]
@[simp] theorem trapReturn_ram  (s : State) : (trapReturn s).ram = s.ram := by
  simp [trapReturn]
@[simp] theorem trapReturn_nextReady  (s : State) : (trapReturn s).nextReady = s.nextReady := by
  simp [trapReturn]
@[simp] theorem trapReturn_clock  (s : State) : (trapReturn s).clock = s.clock := by
  simp [trapReturn]
@[simp] theorem trapReturn_column  (s : State) : (trapReturn s).column = s.column := by
  simp [trapReturn]
@[simp] theorem trapReturn_display  (s : State) : (trapReturn s).display = s.display := by
  simp [trapReturn]
@[simp] theorem trapReturn_diag  (s : State) : (trapReturn s).diag = s.diag := by
  simp [trapReturn]
@[simp] theorem trapReturn_cycles  (s : State) : (trapReturn s).cycles = s.cycles := by
  simp [trapReturn]
@[simp] theorem trapReturn_trace  (s : State) : (trapReturn s).trace = s.trace := by
  simp [trapReturn]
@[simp] theorem trapReturn_booted  (s : State) : (trapReturn s).booted = s.booted := by
  simp [trapReturn]
@[simp] theorem trapReturn_faulted  (s : State) : (trapReturn s).faulted = s.faulted := by
  simp [trapReturn]
@[simp] theorem trapReturn_agenda  (s : State) : (trapReturn s).agenda = s.agenda := by
  simp [trapReturn]
@[simp] theorem trapReturn_replies  (s : State) : (trapReturn s).replies = s.replies := by
  simp [trapReturn]

@[simp] theorem trapReturn_sp (s : State) : (trapReturn s).sp = s.sp + 3#8 := by
  simp only [trapReturn, State.setPC_sp, pullWord_sp, State.setP_sp, pull_sp]
  bv_omega

/-! ### `jumpTarget`: reads only -/

@[simp] theorem jumpTarget_cfg (t : JumpOperand) (s : State) : ((jumpTarget t s).st).cfg = s.cfg := by
  obtain ⟨l, -, h⟩ := jumpTarget_onlyReads t s; rw [h]
@[simp] theorem jumpTarget_a (t : JumpOperand) (s : State) : ((jumpTarget t s).st).a = s.a := by
  obtain ⟨l, -, h⟩ := jumpTarget_onlyReads t s; rw [h]
@[simp] theorem jumpTarget_x (t : JumpOperand) (s : State) : ((jumpTarget t s).st).x = s.x := by
  obtain ⟨l, -, h⟩ := jumpTarget_onlyReads t s; rw [h]
@[simp] theorem jumpTarget_y (t : JumpOperand) (s : State) : ((jumpTarget t s).st).y = s.y := by
  obtain ⟨l, -, h⟩ := jumpTarget_onlyReads t s; rw [h]
@[simp] theorem jumpTarget_sp (t : JumpOperand) (s : State) : ((jumpTarget t s).st).sp = s.sp := by
  obtain ⟨l, -, h⟩ := jumpTarget_onlyReads t s; rw [h]
@[simp] theorem jumpTarget_pc (t : JumpOperand) (s : State) : ((jumpTarget t s).st).pc = s.pc := by
  obtain ⟨l, -, h⟩ := jumpTarget_onlyReads t s; rw [h]
@[simp] theorem jumpTarget_p (t : JumpOperand) (s : State) : ((jumpTarget t s).st).p = s.p := by
  obtain ⟨l, -, h⟩ := jumpTarget_onlyReads t s; rw [h]
@[simp] theorem jumpTarget_ram (t : JumpOperand) (s : State) : ((jumpTarget t s).st).ram = s.ram := by
  obtain ⟨l, -, h⟩ := jumpTarget_onlyReads t s; rw [h]
@[simp] theorem jumpTarget_nextReady (t : JumpOperand) (s : State) : ((jumpTarget t s).st).nextReady = s.nextReady := by
  obtain ⟨l, -, h⟩ := jumpTarget_onlyReads t s; rw [h]
@[simp] theorem jumpTarget_clock (t : JumpOperand) (s : State) : ((jumpTarget t s).st).clock = s.clock := by
  obtain ⟨l, -, h⟩ := jumpTarget_onlyReads t s; rw [h]
@[simp] theorem jumpTarget_column (t : JumpOperand) (s : State) : ((jumpTarget t s).st).column = s.column := by
  obtain ⟨l, -, h⟩ := jumpTarget_onlyReads t s; rw [h]
@[simp] theorem jumpTarget_display (t : JumpOperand) (s : State) : ((jumpTarget t s).st).display = s.display := by
  obtain ⟨l, -, h⟩ := jumpTarget_onlyReads t s; rw [h]
@[simp] theorem jumpTarget_diag (t : JumpOperand) (s : State) : ((jumpTarget t s).st).diag = s.diag := by
  obtain ⟨l, -, h⟩ := jumpTarget_onlyReads t s; rw [h]
@[simp] theorem jumpTarget_cycles (t : JumpOperand) (s : State) : ((jumpTarget t s).st).cycles = s.cycles := by
  obtain ⟨l, -, h⟩ := jumpTarget_onlyReads t s; rw [h]
@[simp] theorem jumpTarget_trace (t : JumpOperand) (s : State) : ((jumpTarget t s).st).trace = s.trace := by
  obtain ⟨l, -, h⟩ := jumpTarget_onlyReads t s; rw [h]
@[simp] theorem jumpTarget_booted (t : JumpOperand) (s : State) : ((jumpTarget t s).st).booted = s.booted := by
  obtain ⟨l, -, h⟩ := jumpTarget_onlyReads t s; rw [h]
@[simp] theorem jumpTarget_faulted (t : JumpOperand) (s : State) : ((jumpTarget t s).st).faulted = s.faulted := by
  obtain ⟨l, -, h⟩ := jumpTarget_onlyReads t s; rw [h]
@[simp] theorem jumpTarget_agenda (t : JumpOperand) (s : State) : ((jumpTarget t s).st).agenda = s.agenda := by
  obtain ⟨l, -, h⟩ := jumpTarget_onlyReads t s; rw [h]
@[simp] theorem jumpTarget_replies (t : JumpOperand) (s : State) : ((jumpTarget t s).st).replies = s.replies := by
  obtain ⟨l, -, h⟩ := jumpTarget_onlyReads t s; rw [h]

/-! ### `store`: one write at EA -/

@[simp] theorem store_cfg (m : MemOperand) (v : Byte) (s : State) : (store m v s).cfg = s.cfg := by
  simp [store]
@[simp] theorem store_a (m : MemOperand) (v : Byte) (s : State) : (store m v s).a = s.a := by
  simp [store]
@[simp] theorem store_x (m : MemOperand) (v : Byte) (s : State) : (store m v s).x = s.x := by
  simp [store]
@[simp] theorem store_y (m : MemOperand) (v : Byte) (s : State) : (store m v s).y = s.y := by
  simp [store]
@[simp] theorem store_sp (m : MemOperand) (v : Byte) (s : State) : (store m v s).sp = s.sp := by
  simp [store]
@[simp] theorem store_pc (m : MemOperand) (v : Byte) (s : State) : (store m v s).pc = s.pc := by
  simp [store]
@[simp] theorem store_p (m : MemOperand) (v : Byte) (s : State) : (store m v s).p = s.p := by
  simp [store]
@[simp] theorem store_clock (m : MemOperand) (v : Byte) (s : State) : (store m v s).clock = s.clock := by
  simp [store]
@[simp] theorem store_trace (m : MemOperand) (v : Byte) (s : State) : (store m v s).trace = s.trace := by
  simp [store]
@[simp] theorem store_booted (m : MemOperand) (v : Byte) (s : State) : (store m v s).booted = s.booted := by
  simp [store]
@[simp] theorem store_faulted (m : MemOperand) (v : Byte) (s : State) : (store m v s).faulted = s.faulted := by
  simp [store]
@[simp] theorem store_agenda (m : MemOperand) (v : Byte) (s : State) : (store m v s).agenda = s.agenda := by
  simp [store]
@[simp] theorem store_replies (m : MemOperand) (v : Byte) (s : State) : (store m v s).replies = s.replies := by
  simp [store]

/-! ### `modifyMem`: one read and one write at EA -/

@[simp] theorem modifyMem_cfg (m : MemOperand) (f : Byte → Byte) (s : State) : ((modifyMem m f s).st).cfg = s.cfg := by
  simp [modifyMem, readByte]
@[simp] theorem modifyMem_a (m : MemOperand) (f : Byte → Byte) (s : State) : ((modifyMem m f s).st).a = s.a := by
  simp [modifyMem, readByte]
@[simp] theorem modifyMem_x (m : MemOperand) (f : Byte → Byte) (s : State) : ((modifyMem m f s).st).x = s.x := by
  simp [modifyMem, readByte]
@[simp] theorem modifyMem_y (m : MemOperand) (f : Byte → Byte) (s : State) : ((modifyMem m f s).st).y = s.y := by
  simp [modifyMem, readByte]
@[simp] theorem modifyMem_sp (m : MemOperand) (f : Byte → Byte) (s : State) : ((modifyMem m f s).st).sp = s.sp := by
  simp [modifyMem, readByte]
@[simp] theorem modifyMem_pc (m : MemOperand) (f : Byte → Byte) (s : State) : ((modifyMem m f s).st).pc = s.pc := by
  simp [modifyMem, readByte]
@[simp] theorem modifyMem_p (m : MemOperand) (f : Byte → Byte) (s : State) : ((modifyMem m f s).st).p = s.p := by
  simp [modifyMem, readByte]
@[simp] theorem modifyMem_clock (m : MemOperand) (f : Byte → Byte) (s : State) : ((modifyMem m f s).st).clock = s.clock := by
  simp [modifyMem, readByte]
@[simp] theorem modifyMem_trace (m : MemOperand) (f : Byte → Byte) (s : State) : ((modifyMem m f s).st).trace = s.trace := by
  simp [modifyMem, readByte]
@[simp] theorem modifyMem_booted (m : MemOperand) (f : Byte → Byte) (s : State) : ((modifyMem m f s).st).booted = s.booted := by
  simp [modifyMem, readByte]
@[simp] theorem modifyMem_faulted (m : MemOperand) (f : Byte → Byte) (s : State) : ((modifyMem m f s).st).faulted = s.faulted := by
  simp [modifyMem, readByte]
@[simp] theorem modifyMem_agenda (m : MemOperand) (f : Byte → Byte) (s : State) : ((modifyMem m f s).st).agenda = s.agenda := by
  simp [modifyMem, readByte]
@[simp] theorem modifyMem_replies (m : MemOperand) (f : Byte → Byte) (s : State) : ((modifyMem m f s).st).replies = s.replies := by
  simp [modifyMem, readByte]

/-! ### `modifyOperand`: A, or one read and one write at EA -/

@[simp] theorem modifyOperand_cfg (o : ShiftOperand) (f : Byte → Byte) (s : State) : ((modifyOperand o f s).st).cfg = s.cfg := by
  cases o <;> simp [modifyOperand]
@[simp] theorem modifyOperand_x (o : ShiftOperand) (f : Byte → Byte) (s : State) : ((modifyOperand o f s).st).x = s.x := by
  cases o <;> simp [modifyOperand]
@[simp] theorem modifyOperand_y (o : ShiftOperand) (f : Byte → Byte) (s : State) : ((modifyOperand o f s).st).y = s.y := by
  cases o <;> simp [modifyOperand]
@[simp] theorem modifyOperand_sp (o : ShiftOperand) (f : Byte → Byte) (s : State) : ((modifyOperand o f s).st).sp = s.sp := by
  cases o <;> simp [modifyOperand]
@[simp] theorem modifyOperand_pc (o : ShiftOperand) (f : Byte → Byte) (s : State) : ((modifyOperand o f s).st).pc = s.pc := by
  cases o <;> simp [modifyOperand]
@[simp] theorem modifyOperand_p (o : ShiftOperand) (f : Byte → Byte) (s : State) : ((modifyOperand o f s).st).p = s.p := by
  cases o <;> simp [modifyOperand]
@[simp] theorem modifyOperand_clock (o : ShiftOperand) (f : Byte → Byte) (s : State) : ((modifyOperand o f s).st).clock = s.clock := by
  cases o <;> simp [modifyOperand]
@[simp] theorem modifyOperand_trace (o : ShiftOperand) (f : Byte → Byte) (s : State) : ((modifyOperand o f s).st).trace = s.trace := by
  cases o <;> simp [modifyOperand]
@[simp] theorem modifyOperand_booted (o : ShiftOperand) (f : Byte → Byte) (s : State) : ((modifyOperand o f s).st).booted = s.booted := by
  cases o <;> simp [modifyOperand]
@[simp] theorem modifyOperand_faulted (o : ShiftOperand) (f : Byte → Byte) (s : State) : ((modifyOperand o f s).st).faulted = s.faulted := by
  cases o <;> simp [modifyOperand]
@[simp] theorem modifyOperand_agenda (o : ShiftOperand) (f : Byte → Byte) (s : State) : ((modifyOperand o f s).st).agenda = s.agenda := by
  cases o <;> simp [modifyOperand]
@[simp] theorem modifyOperand_replies (o : ShiftOperand) (f : Byte → Byte) (s : State) : ((modifyOperand o f s).st).replies = s.replies := by
  cases o <;> simp [modifyOperand]

/-! ### `branch`: PC -/

@[simp] theorem branch_cfg (c : Bool) (off : Byte) (s : State) : (branch c off s).cfg = s.cfg := by
  cases c <;> simp [branch]
@[simp] theorem branch_a (c : Bool) (off : Byte) (s : State) : (branch c off s).a = s.a := by
  cases c <;> simp [branch]
@[simp] theorem branch_x (c : Bool) (off : Byte) (s : State) : (branch c off s).x = s.x := by
  cases c <;> simp [branch]
@[simp] theorem branch_y (c : Bool) (off : Byte) (s : State) : (branch c off s).y = s.y := by
  cases c <;> simp [branch]
@[simp] theorem branch_sp (c : Bool) (off : Byte) (s : State) : (branch c off s).sp = s.sp := by
  cases c <;> simp [branch]
@[simp] theorem branch_p (c : Bool) (off : Byte) (s : State) : (branch c off s).p = s.p := by
  cases c <;> simp [branch]
@[simp] theorem branch_ram (c : Bool) (off : Byte) (s : State) : (branch c off s).ram = s.ram := by
  cases c <;> simp [branch]
@[simp] theorem branch_keyboardLatch (c : Bool) (off : Byte) (s : State) : (branch c off s).keyboardLatch = s.keyboardLatch := by
  cases c <;> simp [branch]
@[simp] theorem branch_nextReady (c : Bool) (off : Byte) (s : State) : (branch c off s).nextReady = s.nextReady := by
  cases c <;> simp [branch]
@[simp] theorem branch_clock (c : Bool) (off : Byte) (s : State) : (branch c off s).clock = s.clock := by
  cases c <;> simp [branch]
@[simp] theorem branch_column (c : Bool) (off : Byte) (s : State) : (branch c off s).column = s.column := by
  cases c <;> simp [branch]
@[simp] theorem branch_display (c : Bool) (off : Byte) (s : State) : (branch c off s).display = s.display := by
  cases c <;> simp [branch]
@[simp] theorem branch_diag (c : Bool) (off : Byte) (s : State) : (branch c off s).diag = s.diag := by
  cases c <;> simp [branch]
@[simp] theorem branch_trace (c : Bool) (off : Byte) (s : State) : (branch c off s).trace = s.trace := by
  cases c <;> simp [branch]
@[simp] theorem branch_booted (c : Bool) (off : Byte) (s : State) : (branch c off s).booted = s.booted := by
  cases c <;> simp [branch]
@[simp] theorem branch_faulted (c : Bool) (off : Byte) (s : State) : (branch c off s).faulted = s.faulted := by
  cases c <;> simp [branch]
@[simp] theorem branch_agenda (c : Bool) (off : Byte) (s : State) : (branch c off s).agenda = s.agenda := by
  cases c <;> simp [branch]
@[simp] theorem branch_replies (c : Bool) (off : Byte) (s : State) : (branch c off s).replies = s.replies := by
  cases c <;> simp [branch]

/-! ### Cycles -/

theorem store_cycles (m : MemOperand) (v : Byte) (s : State) : (store m v s).cycles = s.cycles + writeCycles m.mode := by
  simp [store]

theorem modifyMem_cycles (m : MemOperand) (f : Byte → Byte) (s : State) :
    (modifyMem m f s).st.cycles = s.cycles + modifyCycles m.mode := by
  simp [modifyMem, readByte]

theorem modifyOperand_cycles (o : ShiftOperand) (f : Byte → Byte) (s : State) :
    (modifyOperand o f s).st.cycles = s.cycles + modifyCycles o.mode := by
  cases o <;> simp [modifyOperand, modifyMem_cycles, ShiftOperand.mode]

/-! ### RAM -/

/-- A store changes RAM as one write of one byte at EA does. -/
theorem store_ram (m : MemOperand) (v : Byte) (s : State) :
    (store m v s).ram =
      if (resolve m s).ea.toNat < s.cfg.ramSize then Memory.set s.ram (resolve m s).ea.toNat v else s.ram := by
  simp [store, writeByte_ram]

theorem modifyMem_ram (m : MemOperand) (f : Byte → Byte) (s : State) :
    (modifyMem m f s).st.ram =
      if (resolve m s).ea.toNat < s.cfg.ramSize then
        Memory.set s.ram (resolve m s).ea.toNat (f (modifyMem m f s).val)
      else s.ram := by
  simp [modifyMem, readByte, writeByte_ram]

theorem push_ram (v : Byte) (s : State) :
    (push s v).ram =
      if (stackAddr s.sp).toNat < s.cfg.ramSize then Memory.set s.ram (stackAddr s.sp).toNat v else s.ram := by
  simp [push, writeByte_ram]

end Sys2Proof.Machine
end

