-- ==== Sys2Proof/Laws/PerInstr.lean ====
section
/-! SUPPORT. The family EncodingLength, instruction by instruction: a well-formed instruction has an encoding, its first
byte is its opcode, and that byte alone gives the length of the whole (R140, R142). -/

namespace Sys2Proof.Laws

/-- The encoding of a well-formed instruction is an opcode byte and the operand bytes, as many as the decoder's length for
that byte says. -/
def EncodingLength.Statement (i : Instr) : Prop :=
  i.wf = true → ∃ op, encode i = some (op :: i.operandBytes) ∧ instrLength op = i.operandBytes.length + 1

theorem EncodingLength.lda (o : ReadOperand) : EncodingLength.Statement (.lda o) := fun h => by
  rcases o with b | m
  · exact ⟨_, rfl, rfl⟩
  · cases m <;> first | exact ⟨_, rfl, rfl⟩ | exact nomatch h

theorem EncodingLength.ldx (o : ReadOperand) : EncodingLength.Statement (.ldx o) := fun h => by
  rcases o with b | m
  · exact ⟨_, rfl, rfl⟩
  · cases m <;> first | exact ⟨_, rfl, rfl⟩ | exact nomatch h

theorem EncodingLength.ldy (o : ReadOperand) : EncodingLength.Statement (.ldy o) := fun h => by
  rcases o with b | m
  · exact ⟨_, rfl, rfl⟩
  · cases m <;> first | exact ⟨_, rfl, rfl⟩ | exact nomatch h

theorem EncodingLength.sta (m : MemOperand) : EncodingLength.Statement (.sta m) := fun h => by
  cases m <;> first | exact ⟨_, rfl, rfl⟩ | exact nomatch h

theorem EncodingLength.stx (m : MemOperand) : EncodingLength.Statement (.stx m) := fun h => by
  cases m <;> first | exact ⟨_, rfl, rfl⟩ | exact nomatch h

theorem EncodingLength.sty (m : MemOperand) : EncodingLength.Statement (.sty m) := fun h => by
  cases m <;> first | exact ⟨_, rfl, rfl⟩ | exact nomatch h

theorem EncodingLength.tax : EncodingLength.Statement .tax := fun _ => ⟨_, rfl, rfl⟩

theorem EncodingLength.tay : EncodingLength.Statement .tay := fun _ => ⟨_, rfl, rfl⟩

theorem EncodingLength.txa : EncodingLength.Statement .txa := fun _ => ⟨_, rfl, rfl⟩

theorem EncodingLength.tya : EncodingLength.Statement .tya := fun _ => ⟨_, rfl, rfl⟩

theorem EncodingLength.tsx : EncodingLength.Statement .tsx := fun _ => ⟨_, rfl, rfl⟩

theorem EncodingLength.txs : EncodingLength.Statement .txs := fun _ => ⟨_, rfl, rfl⟩

theorem EncodingLength.pha : EncodingLength.Statement .pha := fun _ => ⟨_, rfl, rfl⟩

theorem EncodingLength.pla : EncodingLength.Statement .pla := fun _ => ⟨_, rfl, rfl⟩

theorem EncodingLength.plp : EncodingLength.Statement .plp := fun _ => ⟨_, rfl, rfl⟩

theorem EncodingLength.php : EncodingLength.Statement .php := fun _ => ⟨_, rfl, rfl⟩

theorem EncodingLength.adc (o : ReadOperand) : EncodingLength.Statement (.adc o) := fun h => by
  rcases o with b | m
  · exact ⟨_, rfl, rfl⟩
  · cases m <;> first | exact ⟨_, rfl, rfl⟩ | exact nomatch h

theorem EncodingLength.sbc (o : ReadOperand) : EncodingLength.Statement (.sbc o) := fun h => by
  rcases o with b | m
  · exact ⟨_, rfl, rfl⟩
  · cases m <;> first | exact ⟨_, rfl, rfl⟩ | exact nomatch h

theorem EncodingLength.cmp (o : ReadOperand) : EncodingLength.Statement (.cmp o) := fun h => by
  rcases o with b | m
  · exact ⟨_, rfl, rfl⟩
  · cases m <;> first | exact ⟨_, rfl, rfl⟩ | exact nomatch h

theorem EncodingLength.cpx (o : ReadOperand) : EncodingLength.Statement (.cpx o) := fun h => by
  rcases o with b | m
  · exact ⟨_, rfl, rfl⟩
  · cases m <;> first | exact ⟨_, rfl, rfl⟩ | exact nomatch h

theorem EncodingLength.cpy (o : ReadOperand) : EncodingLength.Statement (.cpy o) := fun h => by
  rcases o with b | m
  · exact ⟨_, rfl, rfl⟩
  · cases m <;> first | exact ⟨_, rfl, rfl⟩ | exact nomatch h

theorem EncodingLength.inc (m : MemOperand) : EncodingLength.Statement (.inc m) := fun h => by
  cases m <;> first | exact ⟨_, rfl, rfl⟩ | exact nomatch h

theorem EncodingLength.dec (m : MemOperand) : EncodingLength.Statement (.dec m) := fun h => by
  cases m <;> first | exact ⟨_, rfl, rfl⟩ | exact nomatch h

theorem EncodingLength.inx : EncodingLength.Statement .inx := fun _ => ⟨_, rfl, rfl⟩

theorem EncodingLength.iny : EncodingLength.Statement .iny := fun _ => ⟨_, rfl, rfl⟩

theorem EncodingLength.dex : EncodingLength.Statement .dex := fun _ => ⟨_, rfl, rfl⟩

theorem EncodingLength.dey : EncodingLength.Statement .dey := fun _ => ⟨_, rfl, rfl⟩

theorem EncodingLength.and (o : ReadOperand) : EncodingLength.Statement (.and o) := fun h => by
  rcases o with b | m
  · exact ⟨_, rfl, rfl⟩
  · cases m <;> first | exact ⟨_, rfl, rfl⟩ | exact nomatch h

theorem EncodingLength.ora (o : ReadOperand) : EncodingLength.Statement (.ora o) := fun h => by
  rcases o with b | m
  · exact ⟨_, rfl, rfl⟩
  · cases m <;> first | exact ⟨_, rfl, rfl⟩ | exact nomatch h

theorem EncodingLength.eor (o : ReadOperand) : EncodingLength.Statement (.eor o) := fun h => by
  rcases o with b | m
  · exact ⟨_, rfl, rfl⟩
  · cases m <;> first | exact ⟨_, rfl, rfl⟩ | exact nomatch h

theorem EncodingLength.bit (m : MemOperand) : EncodingLength.Statement (.bit m) := fun h => by
  cases m <;> first | exact ⟨_, rfl, rfl⟩ | exact nomatch h

theorem EncodingLength.asl (o : ShiftOperand) : EncodingLength.Statement (.asl o) := fun h => by
  rcases o with _ | m
  · exact ⟨_, rfl, rfl⟩
  · cases m <;> first | exact ⟨_, rfl, rfl⟩ | exact nomatch h

theorem EncodingLength.lsr (o : ShiftOperand) : EncodingLength.Statement (.lsr o) := fun h => by
  rcases o with _ | m
  · exact ⟨_, rfl, rfl⟩
  · cases m <;> first | exact ⟨_, rfl, rfl⟩ | exact nomatch h

theorem EncodingLength.rol (o : ShiftOperand) : EncodingLength.Statement (.rol o) := fun h => by
  rcases o with _ | m
  · exact ⟨_, rfl, rfl⟩
  · cases m <;> first | exact ⟨_, rfl, rfl⟩ | exact nomatch h

theorem EncodingLength.ror (o : ShiftOperand) : EncodingLength.Statement (.ror o) := fun h => by
  rcases o with _ | m
  · exact ⟨_, rfl, rfl⟩
  · cases m <;> first | exact ⟨_, rfl, rfl⟩ | exact nomatch h

theorem EncodingLength.jmp (t : JumpOperand) : EncodingLength.Statement (.jmp t) := fun _ => by
  cases t <;> exact ⟨_, rfl, rfl⟩

theorem EncodingLength.jsr (w : Addr) : EncodingLength.Statement (.jsr w) := fun _ => ⟨_, rfl, rfl⟩

theorem EncodingLength.rts : EncodingLength.Statement .rts := fun _ => ⟨_, rfl, rfl⟩

theorem EncodingLength.brk : EncodingLength.Statement .brk := fun _ => ⟨_, rfl, rfl⟩

theorem EncodingLength.rti : EncodingLength.Statement .rti := fun _ => ⟨_, rfl, rfl⟩

theorem EncodingLength.bcc (off : Byte) : EncodingLength.Statement (.bcc off) := fun _ => ⟨_, rfl, rfl⟩

theorem EncodingLength.bcs (off : Byte) : EncodingLength.Statement (.bcs off) := fun _ => ⟨_, rfl, rfl⟩

theorem EncodingLength.beq (off : Byte) : EncodingLength.Statement (.beq off) := fun _ => ⟨_, rfl, rfl⟩

theorem EncodingLength.bne (off : Byte) : EncodingLength.Statement (.bne off) := fun _ => ⟨_, rfl, rfl⟩

theorem EncodingLength.bmi (off : Byte) : EncodingLength.Statement (.bmi off) := fun _ => ⟨_, rfl, rfl⟩

theorem EncodingLength.bpl (off : Byte) : EncodingLength.Statement (.bpl off) := fun _ => ⟨_, rfl, rfl⟩

theorem EncodingLength.bvc (off : Byte) : EncodingLength.Statement (.bvc off) := fun _ => ⟨_, rfl, rfl⟩

theorem EncodingLength.bvs (off : Byte) : EncodingLength.Statement (.bvs off) := fun _ => ⟨_, rfl, rfl⟩

theorem EncodingLength.clc : EncodingLength.Statement .clc := fun _ => ⟨_, rfl, rfl⟩

theorem EncodingLength.sec : EncodingLength.Statement .sec := fun _ => ⟨_, rfl, rfl⟩

theorem EncodingLength.cli : EncodingLength.Statement .cli := fun _ => ⟨_, rfl, rfl⟩

theorem EncodingLength.sei : EncodingLength.Statement .sei := fun _ => ⟨_, rfl, rfl⟩

theorem EncodingLength.cld : EncodingLength.Statement .cld := fun _ => ⟨_, rfl, rfl⟩

theorem EncodingLength.sed : EncodingLength.Statement .sed := fun _ => ⟨_, rfl, rfl⟩

theorem EncodingLength.clv : EncodingLength.Statement .clv := fun _ => ⟨_, rfl, rfl⟩

theorem EncodingLength.nop : EncodingLength.Statement .nop := fun _ => ⟨_, rfl, rfl⟩

theorem EncodingLength.undefined (op : Byte) : EncodingLength.Statement (.undefined op) := fun h => by
  have hm : op ∈ undefinedOpcodes := List.contains_iff_mem.mp h
  refine ⟨op, by simp [encode, Instr.opcode, Instr.operandBytes, hm], ?_⟩
  simp [instrLength, shapeOf_undefined hm, Instr.operandBytes]

end Sys2Proof.Laws
end

