-- ==== Sys2Proof/Tests/Slice0.lean ====
section
/-! SUPPORT. The model's own tests: ill-formed terms refused, words written out from the spec's encodings decoded, one
step each against a row of 95_test_vectors.md (the row is named), the host's two entry points, and for every obligation
with hypotheses a concrete state and operands that meet them. -/

namespace Sys2Proof.Tests

open Sys2Proof Sys2Proof.Machine Sys2Proof.Claims

/-- The flags N V D I Z C in the order the vectors print them. -/
def flags (n v d i z c : Nat) : Flags :=
  { n := n == 1, v := v == 1, d := d == 1, i := i == 1, z := z == 1, c := c == 1 }

/-- The state one step after the bytes are placed at PC. -/
def after (s : State) (bytes : List Byte) : Option State :=
  match step (placeBytes s s.pc bytes) with
  | .next t => some t
  | _ => none

/-- The end column of a vector: A, X, Y, S, PC, flags, cycles. -/
structure Row where
  a      : Byte
  x      : Byte
  y      : Byte
  sp     : Byte
  pc     : Addr
  p      : Flags
  cycles : Nat
  deriving DecidableEq, Repr

/-- The registers of a state as a vector prints them. -/
def row (t : State) : Row := ⟨t.a, t.x, t.y, t.sp, t.pc, t.p, t.cycles⟩

/-! ## Well-formedness: a form outside R148's table is refused -/

theorem test_wf_refuses_alu :
    (Instr.lda (.mem (.zpY 0x10#8))).wf = false ∧ (Instr.adc (.mem (.zpY 0x10#8))).wf = false ∧
    (Instr.sbc (.mem (.zpY 0x10#8))).wf = false ∧ (Instr.cmp (.mem (.zpY 0x10#8))).wf = false ∧
    (Instr.and (.mem (.zpY 0x10#8))).wf = false ∧ (Instr.ora (.mem (.zpY 0x10#8))).wf = false ∧
    (Instr.eor (.mem (.zpY 0x10#8))).wf = false := by
  decide

theorem test_wf_refuses_ldx : (Instr.ldx (.mem (.zpX 0x10#8))).wf = false := by decide

theorem test_wf_refuses_ldy : (Instr.ldy (.mem (.zpY 0x10#8))).wf = false := by decide

theorem test_wf_refuses_sta : (Instr.sta (.zpY 0x10#8)).wf = false := by decide

theorem test_wf_refuses_stx : (Instr.stx (.zpX 0x10#8)).wf = false := by decide

theorem test_wf_refuses_sty : (Instr.sty (.zpY 0x10#8)).wf = false := by decide

theorem test_wf_refuses_index_compares :
    (Instr.cpx (.mem (.zpX 0x10#8))).wf = false ∧ (Instr.cpy (.mem (.absX 0x1234#16))).wf = false := by
  decide

theorem test_wf_refuses_modify :
    (Instr.inc (.indX 0x10#8)).wf = false ∧ (Instr.dec (.absY 0x1234#16)).wf = false := by
  decide

theorem test_wf_refuses_bit : (Instr.bit (.absX 0x1234#16)).wf = false := by decide

theorem test_wf_refuses_shifts :
    (Instr.asl (.mem (.zpY 0x10#8))).wf = false ∧ (Instr.lsr (.mem (.absY 0x1234#16))).wf = false ∧
    (Instr.rol (.mem (.indY 0x10#8))).wf = false ∧ (Instr.ror (.mem (.indX 0x10#8))).wf = false := by
  decide

theorem test_wf_refuses_documented_as_undefined : (Instr.undefined 0xA9#8).wf = false := by decide

/-! ## Decoding: words written out from R145, R148 and R161, at least one for every mnemonic -/

/-- Each list of bytes is exactly one instruction, the one beside it. -/
abbrev Decodes (l : List (List Byte × Instr)) : Prop := ∀ e ∈ l, decode e.1 = .ok (e.2, [])

theorem test_decode_load_store :
    Decodes [
      ([0xB1#8, 0x40#8], .lda (.mem (.indY 0x40#8))), ([0xBE#8, 0x34#8, 0x12#8], .ldx (.mem (.absY 0x1234#16))),
      ([0xB4#8, 0x10#8], .ldy (.mem (.zpX 0x10#8))), ([0x81#8, 0x10#8], .sta (.indX 0x10#8)),
      ([0x96#8, 0xFF#8], .stx (.zpY 0xFF#8)), ([0x8C#8, 0x34#8, 0x12#8], .sty (.abs 0x1234#16))] := by
  decide

theorem test_decode_transfer_stack :
    Decodes [
      ([0xAA#8], .tax), ([0xA8#8], .tay), ([0x8A#8], .txa), ([0x98#8], .tya), ([0xBA#8], .tsx), ([0x9A#8], .txs),
      ([0x48#8], .pha), ([0x68#8], .pla), ([0x28#8], .plp), ([0x08#8], .php)] := by
  decide

theorem test_decode_arithmetic :
    Decodes [
      ([0x69#8, 0x50#8], .adc (.imm 0x50#8)), ([0xF5#8, 0x10#8], .sbc (.mem (.zpX 0x10#8))),
      ([0xD9#8, 0x34#8, 0x12#8], .cmp (.mem (.absY 0x1234#16))), ([0xE4#8, 0x10#8], .cpx (.mem (.zp 0x10#8))),
      ([0xCC#8, 0x34#8, 0x12#8], .cpy (.mem (.abs 0x1234#16))), ([0xFE#8, 0xFF#8, 0x02#8], .inc (.absX 0x02FF#16)),
      ([0xC6#8, 0x10#8], .dec (.zp 0x10#8)), ([0xE8#8], .inx), ([0xC8#8], .iny), ([0xCA#8], .dex),
      ([0x88#8], .dey)] := by
  decide

theorem test_decode_logic_shift :
    Decodes [
      ([0x21#8, 0x10#8], .and (.mem (.indX 0x10#8))), ([0x1D#8, 0x34#8, 0x12#8], .ora (.mem (.absX 0x1234#16))),
      ([0x45#8, 0x10#8], .eor (.mem (.zp 0x10#8))), ([0x2C#8, 0x13#8, 0xD0#8], .bit (.abs 0xD013#16)),
      ([0x0A#8], .asl .acc), ([0x5E#8, 0x34#8, 0x12#8], .lsr (.mem (.absX 0x1234#16))),
      ([0x36#8, 0x10#8], .rol (.mem (.zpX 0x10#8))), ([0x66#8, 0x30#8], .ror (.mem (.zp 0x30#8)))] := by
  decide

theorem test_decode_control :
    Decodes [
      ([0x4C#8, 0x0B#8, 0x02#8], .jmp (.abs 0x020B#16)), ([0x6C#8, 0xFF#8, 0x02#8], .jmp (.ind 0x02FF#16)),
      ([0x20#8, 0x11#8, 0x02#8], .jsr 0x0211#16), ([0x60#8], .rts), ([0x00#8], .brk), ([0x40#8], .rti),
      ([0x90#8, 0x02#8], .bcc 0x02#8), ([0xB0#8, 0x7F#8], .bcs 0x7F#8), ([0xF0#8, 0xFC#8], .beq 0xFC#8),
      ([0xD0#8, 0xF7#8], .bne 0xF7#8), ([0x30#8, 0xFB#8], .bmi 0xFB#8), ([0x10#8, 0xFE#8], .bpl 0xFE#8),
      ([0x50#8, 0x80#8], .bvc 0x80#8), ([0x70#8, 0x10#8], .bvs 0x10#8)] := by
  decide

theorem test_decode_flags_misc :
    Decodes [
      ([0x18#8], .clc), ([0x38#8], .sec), ([0x58#8], .cli), ([0x78#8], .sei), ([0xD8#8], .cld), ([0xF8#8], .sed),
      ([0xB8#8], .clv), ([0xEA#8], .nop), ([0x02#8], .undefined 0x02#8), ([0xFF#8], .undefined 0xFF#8)] := by
  decide

/-- An undefined opcode is one byte long, whatever follows (R338, V-FM10). -/
theorem test_decode_undefined_takes_no_operand :
    decode [0x0C#8, 0xA9#8, 0x05#8] = .ok (.undefined 0x0C#8, [0xA9#8, 0x05#8]) := by
  decide

theorem test_decode_rejects_truncation :
    decode [] = .error .noBytes ∧ decode [0xAD#8, 0x34#8] = .error (.truncated 0xAD#8) := by
  decide

/-! ## The host's entry points -/

/-- `LDA #$05` and `LDA $1234` as the opcode table numbers their bits, and an operand of zeros. -/
theorem test_table_words :
    decodeTableWord 16 0x05A9 = some (.lda (.imm 0x05#8)) ∧
    decodeTableWord 24 0x1234AD = some (.lda (.mem (.abs 0x1234#16))) ∧
    decodeTableWord 8 0xAD = some (.lda (.mem (.abs 0x0000#16))) := by
  decide

/-- V-SRC5: the word placed where the step fetches is the instruction that runs. -/
theorem test_with_fetch_word :
    (match step (State.reset.withFetchWord 16 0x05A9) with
      | .next t => some (row t)
      | _ => none) =
      some ⟨0x05#8, 0x00#8, 0x00#8, 0xFD#8, 0x0202#16, flags 0 0 0 1 0 0, 2⟩ := by
  decide

/-! ## One step of each instruction -/

/-- V-LS6. -/
theorem test_lda_indexed_indirect :
    (after { State.reset with x := 0x01#8, ram := [(0x0000, 0x12#8), (0x00FF, 0x34#8), (0x1234, 0x99#8)] }
      [0xA1#8, 0xFE#8]).map row =
      some ⟨0x99#8, 0x01#8, 0x00#8, 0xFD#8, 0x0202#16, flags 1 0 0 1 0 0, 6⟩ := by
  decide

/-- V-LS7. -/
theorem test_lda_indirect_indexed :
    (after { State.reset with y := 0x10#8, ram := [(0x0040, 0xF8#8), (0x0041, 0x02#8), (0x0308, 0x5A#8)] }
      [0xB1#8, 0x40#8]).map row =
      some ⟨0x5A#8, 0x00#8, 0x10#8, 0xFD#8, 0x0202#16, flags 0 0 0 1 0 0, 6⟩ := by
  decide

/-- V-LS8. -/
theorem test_ldx_zero_page_y_wraps :
    (after { State.reset with y := 0x02#8, ram := [(0x0001, 0x81#8)] } [0xB6#8, 0xFF#8]).map row =
      some ⟨0x00#8, 0x81#8, 0x02#8, 0xFD#8, 0x0202#16, flags 1 0 0 1 0 0, 4⟩ := by
  decide

/-- V-LS9. -/
theorem test_ldy_zero :
    (after { State.reset with y := 0x05#8, ram := [] } [0xAC#8, 0x34#8, 0x12#8]).map row =
      some ⟨0x00#8, 0x00#8, 0x00#8, 0xFD#8, 0x0203#16, flags 0 0 0 1 1 0, 4⟩ := by
  decide

/-- V-LS10. -/
theorem test_sta_absolute_x :
    (after { State.reset with a := 0x55#8, x := 0x20#8 }
      [0x9D#8, 0xF0#8, 0x02#8]).map (fun t => (row t, peek t 0x0310#16)) =
      some (⟨0x55#8, 0x20#8, 0x00#8, 0xFD#8, 0x0203#16, flags 0 0 0 1 0 0, 5⟩, 0x55#8) := by
  decide

/-- V-LS11. -/
theorem test_sta_rom_rejected :
    (after { State.reset with a := 0x55#8 } [0x8D#8, 0x00#8, 0xE0#8]).map (fun t => (row t, t.diag)) =
      some (⟨0x55#8, 0x00#8, 0x00#8, 0xFD#8, 0x0203#16, flags 0 0 0 1 0 0, 4⟩, [.writeRejected 0xE000#16 0x55#8]) := by
  decide

/-- V-LS12. -/
theorem test_stx_zero_page_y_wraps :
    (after { State.reset with x := 0x42#8, y := 0x03#8 }
      [0x96#8, 0xFF#8]).map (fun t => (row t, peek t 0x0002#16)) =
      some (⟨0x00#8, 0x42#8, 0x03#8, 0xFD#8, 0x0202#16, flags 0 0 0 1 0 0, 4⟩, 0x42#8) := by
  decide

/-- V-LS13. -/
theorem test_sty_zero_page_x_wraps :
    (after { State.reset with y := 0x99#8, x := 0x80#8 }
      [0x94#8, 0x80#8]).map (fun t => (row t, peek t 0x0000#16)) =
      some (⟨0x00#8, 0x80#8, 0x99#8, 0xFD#8, 0x0202#16, flags 0 0 0 1 0 0, 4⟩, 0x99#8) := by
  decide

/-- V-TS1. -/
theorem test_tax :
    (after { State.reset with a := 0x00#8, x := 0x55#8 } [0xAA#8]).map row =
      some ⟨0x00#8, 0x00#8, 0x00#8, 0xFD#8, 0x0201#16, flags 0 0 0 1 1 0, 2⟩ := by
  decide

/-- V-TS2. -/
theorem test_tay :
    (after { State.reset with a := 0x90#8 } [0xA8#8]).map row =
      some ⟨0x90#8, 0x00#8, 0x90#8, 0xFD#8, 0x0201#16, flags 1 0 0 1 0 0, 2⟩ := by
  decide

/-- V-TS3. -/
theorem test_txa :
    (after { State.reset with x := 0x7F#8, a := 0x00#8 } [0x8A#8]).map row =
      some ⟨0x7F#8, 0x7F#8, 0x00#8, 0xFD#8, 0x0201#16, flags 0 0 0 1 0 0, 2⟩ := by
  decide

/-- V-TS4. -/
theorem test_tya :
    (after { State.reset with y := 0x00#8, a := 0x01#8 } [0x98#8]).map row =
      some ⟨0x00#8, 0x00#8, 0x00#8, 0xFD#8, 0x0201#16, flags 0 0 0 1 1 0, 2⟩ := by
  decide

/-- V-TS5. -/
theorem test_tsx :
    (after State.reset [0xBA#8]).map row =
      some ⟨0x00#8, 0xFD#8, 0x00#8, 0xFD#8, 0x0201#16, flags 1 0 0 1 0 0, 2⟩ := by
  decide

/-- V-TS6. -/
theorem test_txs_no_flags :
    (after { State.reset with x := 0x00#8, p := { State.reset.p with z := false, n := true } } [0x9A#8]).map row =
      some ⟨0x00#8, 0x00#8, 0x00#8, 0x00#8, 0x0201#16, flags 1 0 0 1 0 0, 2⟩ := by
  decide

/-- V-TS7. -/
theorem test_pha_wraps :
    (after { State.reset with a := 0xAB#8, sp := 0x00#8 } [0x48#8]).map (fun t => (row t, peek t 0x0100#16)) =
      some (⟨0xAB#8, 0x00#8, 0x00#8, 0xFF#8, 0x0201#16, flags 0 0 0 1 0 0, 3⟩, 0xAB#8) := by
  decide

/-- V-TS8. -/
theorem test_pla_wraps :
    (after { State.reset with sp := 0xFF#8, a := 0x11#8, ram := [] } [0x68#8]).map row =
      some ⟨0x00#8, 0x00#8, 0x00#8, 0x00#8, 0x0201#16, flags 0 0 0 1 1 0, 4⟩ := by
  decide

/-- V-TS9. -/
theorem test_php :
    (after State.reset [0x08#8]).map (fun t => (row t, peek t 0x01FD#16)) =
      some (⟨0x00#8, 0x00#8, 0x00#8, 0xFC#8, 0x0201#16, flags 0 0 0 1 0 0, 3⟩, 0x34#8) := by
  decide

/-- V-TS10, V-TS11. -/
theorem test_plp :
    (after { State.reset with sp := 0xFC#8, ram := [(0x01FD, 0xFF#8)] } [0x28#8]).map row =
      some ⟨0x00#8, 0x00#8, 0x00#8, 0xFD#8, 0x0201#16, flags 1 1 1 1 1 1, 4⟩ ∧
    (after { State.reset with sp := 0xFC#8, ram := [(0x01FD, 0x30#8)], p := { State.reset.p with c := true, i := true } }
      [0x28#8]).map row =
      some ⟨0x00#8, 0x00#8, 0x00#8, 0xFD#8, 0x0201#16, flags 0 0 0 0 0 0, 4⟩ := by
  decide

/-- V-AR1, V-AR3, V-AR5. -/
theorem test_adc_binary :
    (after { State.reset with a := 0x50#8 } [0x69#8, 0x50#8]).map row =
      some ⟨0xA0#8, 0x00#8, 0x00#8, 0xFD#8, 0x0202#16, flags 1 1 0 1 0 0, 2⟩ ∧
    (after { State.reset with a := 0x7F#8, p := { State.reset.p with c := true } } [0x69#8, 0x00#8]).map row =
      some ⟨0x80#8, 0x00#8, 0x00#8, 0xFD#8, 0x0202#16, flags 1 1 0 1 0 0, 2⟩ ∧
    (after { State.reset with a := 0xD0#8, p := { State.reset.p with c := true } } [0x69#8, 0x20#8]).map row =
      some ⟨0xF1#8, 0x00#8, 0x00#8, 0xFD#8, 0x0202#16, flags 1 0 0 1 0 0, 2⟩ := by
  decide

/-- V-AR7, V-AR8. -/
theorem test_adc_decimal :
    (after { State.reset with a := 0x99#8, p := { State.reset.p with d := true } } [0x69#8, 0x01#8]).map row =
      some ⟨0x00#8, 0x00#8, 0x00#8, 0xFD#8, 0x0202#16, flags 1 0 1 1 0 1, 2⟩ ∧
    (after { State.reset with a := 0x58#8, p := { State.reset.p with d := true, c := true } }
      [0x69#8, 0x46#8]).map row =
      some ⟨0x05#8, 0x00#8, 0x00#8, 0xFD#8, 0x0202#16, flags 1 1 1 1 0 1, 2⟩ := by
  decide

/-- V-AR13, V-AR14. -/
theorem test_sbc_binary :
    (after { State.reset with a := 0x05#8, p := { State.reset.p with c := false } } [0xE9#8, 0x00#8]).map row =
      some ⟨0x04#8, 0x00#8, 0x00#8, 0xFD#8, 0x0202#16, flags 0 0 0 1 0 1, 2⟩ ∧
    (after { State.reset with a := 0x7F#8, p := { State.reset.p with c := true } } [0xE9#8, 0xFF#8]).map row =
      some ⟨0x80#8, 0x00#8, 0x00#8, 0xFD#8, 0x0202#16, flags 1 1 0 1 0 0, 2⟩ := by
  decide

/-- V-AR15, V-AR17. -/
theorem test_sbc_decimal :
    (after { State.reset with a := 0x00#8, p := { State.reset.p with d := true, c := true } }
      [0xE9#8, 0x01#8]).map row =
      some ⟨0x99#8, 0x00#8, 0x00#8, 0xFD#8, 0x0202#16, flags 1 0 1 1 0 0, 2⟩ ∧
    (after { State.reset with a := 0x40#8, p := { State.reset.p with d := true, c := true } }
      [0xE9#8, 0x29#8]).map row =
      some ⟨0x11#8, 0x00#8, 0x00#8, 0xFD#8, 0x0202#16, flags 0 0 1 1 0 1, 2⟩ := by
  decide

/-- V-AR18, V-AR19, V-AR20. -/
theorem test_cmp :
    (after { State.reset with a := 0x40#8 } [0xC9#8, 0x40#8]).map row =
      some ⟨0x40#8, 0x00#8, 0x00#8, 0xFD#8, 0x0202#16, flags 0 0 0 1 1 1, 2⟩ ∧
    (after { State.reset with a := 0x40#8 } [0xC9#8, 0x41#8]).map row =
      some ⟨0x40#8, 0x00#8, 0x00#8, 0xFD#8, 0x0202#16, flags 1 0 0 1 0 0, 2⟩ ∧
    (after { State.reset with a := 0x80#8 } [0xC9#8, 0x01#8]).map row =
      some ⟨0x80#8, 0x00#8, 0x00#8, 0xFD#8, 0x0202#16, flags 0 0 0 1 0 1, 2⟩ := by
  decide

/-- V-AR21. -/
theorem test_cpx :
    (after { State.reset with x := 0x00#8 } [0xE0#8, 0xFF#8]).map row =
      some ⟨0x00#8, 0x00#8, 0x00#8, 0xFD#8, 0x0202#16, flags 0 0 0 1 0 0, 2⟩ := by
  decide

/-- V-AR22. -/
theorem test_cpy :
    (after { State.reset with y := 0x00#8 } [0xC0#8, 0x00#8]).map row =
      some ⟨0x00#8, 0x00#8, 0x00#8, 0xFD#8, 0x0202#16, flags 0 0 0 1 1 1, 2⟩ := by
  decide

/-- V-AR25. -/
theorem test_inc_absolute_x :
    (after { State.reset with x := 0x01#8, ram := [(0x0300, 0x7F#8)] }
      [0xFE#8, 0xFF#8, 0x02#8]).map (fun t => (row t, peek t 0x0300#16)) =
      some (⟨0x00#8, 0x01#8, 0x00#8, 0xFD#8, 0x0203#16, flags 1 0 0 1 0 0, 7⟩, 0x80#8) := by
  decide

/-- V-AR30. -/
theorem test_inc_rom :
    (after { State.reset with cfg := { Config.default with romImage := 0x41#8 :: Config.blankImage 251 } }
      [0xEE#8, 0x00#8, 0xFF#8]).map (fun t => (row t, t.diag)) =
      some (⟨0x00#8, 0x00#8, 0x00#8, 0xFD#8, 0x0203#16, flags 0 0 0 1 0 0, 6⟩, [.writeRejected 0xFF00#16 0x42#8]) := by
  decide

/-- V-AR24. -/
theorem test_dec_wraps :
    (after { State.reset with ram := [] } [0xCE#8, 0x00#8, 0x03#8]).map (fun t => (row t, peek t 0x0300#16)) =
      some (⟨0x00#8, 0x00#8, 0x00#8, 0xFD#8, 0x0203#16, flags 1 0 0 1 0 0, 6⟩, 0xFF#8) := by
  decide

/-- V-AR26. -/
theorem test_inx :
    (after { State.reset with x := 0xFF#8 } [0xE8#8]).map row =
      some ⟨0x00#8, 0x00#8, 0x00#8, 0xFD#8, 0x0201#16, flags 0 0 0 1 1 0, 2⟩ := by
  decide

/-- V-AR27. -/
theorem test_iny :
    (after { State.reset with y := 0x7F#8 } [0xC8#8]).map row =
      some ⟨0x00#8, 0x00#8, 0x80#8, 0xFD#8, 0x0201#16, flags 1 0 0 1 0 0, 2⟩ := by
  decide

/-- V-AR28. -/
theorem test_dex :
    (after { State.reset with x := 0x01#8 } [0xCA#8]).map row =
      some ⟨0x00#8, 0x00#8, 0x00#8, 0xFD#8, 0x0201#16, flags 0 0 0 1 1 0, 2⟩ := by
  decide

/-- V-AR29. -/
theorem test_dey :
    (after { State.reset with y := 0x00#8 } [0x88#8]).map row =
      some ⟨0x00#8, 0x00#8, 0xFF#8, 0xFD#8, 0x0201#16, flags 1 0 0 1 0 0, 2⟩ := by
  decide

/-- V-LG1. -/
theorem test_and :
    (after { State.reset with a := 0xF0#8 } [0x29#8, 0x0F#8]).map row =
      some ⟨0x00#8, 0x00#8, 0x00#8, 0xFD#8, 0x0202#16, flags 0 0 0 1 1 0, 2⟩ := by
  decide

/-- V-LG2. -/
theorem test_ora :
    (after { State.reset with a := 0x01#8 } [0x09#8, 0x80#8]).map row =
      some ⟨0x81#8, 0x00#8, 0x00#8, 0xFD#8, 0x0202#16, flags 1 0 0 1 0 0, 2⟩ := by
  decide

/-- V-LG3. -/
theorem test_eor :
    (after { State.reset with a := 0xFF#8 } [0x49#8, 0xFF#8]).map row =
      some ⟨0x00#8, 0x00#8, 0x00#8, 0xFD#8, 0x0202#16, flags 0 0 0 1 1 0, 2⟩ := by
  decide

/-- V-LG4, V-LG5. -/
theorem test_bit :
    (after { State.reset with a := 0x3F#8, ram := [(0x0010, 0xC0#8)] } [0x24#8, 0x10#8]).map row =
      some ⟨0x3F#8, 0x00#8, 0x00#8, 0xFD#8, 0x0202#16, flags 1 1 0 1 1 0, 3⟩ ∧
    (after { State.reset with a := 0x01#8, ram := [(0x0300, 0x41#8)] } [0x2C#8, 0x00#8, 0x03#8]).map row =
      some ⟨0x01#8, 0x00#8, 0x00#8, 0xFD#8, 0x0203#16, flags 0 1 0 1 0 0, 4⟩ := by
  decide

/-- V-LG6. -/
theorem test_asl_accumulator :
    (after { State.reset with a := 0x80#8 } [0x0A#8]).map row =
      some ⟨0x00#8, 0x00#8, 0x00#8, 0xFD#8, 0x0201#16, flags 0 0 0 1 1 1, 2⟩ := by
  decide

/-- V-LG7. -/
theorem test_asl_memory :
    (after { State.reset with ram := [(0x0020, 0x40#8)] }
      [0x06#8, 0x20#8]).map (fun t => (row t, peek t 0x0020#16)) =
      some (⟨0x00#8, 0x00#8, 0x00#8, 0xFD#8, 0x0202#16, flags 1 0 0 1 0 0, 5⟩, 0x80#8) := by
  decide

/-- V-LG8. -/
theorem test_lsr_accumulator :
    (after { State.reset with a := 0x01#8 } [0x4A#8]).map row =
      some ⟨0x00#8, 0x00#8, 0x00#8, 0xFD#8, 0x0201#16, flags 0 0 0 1 1 1, 2⟩ := by
  decide

/-- V-LG9. -/
theorem test_lsr_memory :
    (after { State.reset with ram := [(0x0300, 0xFF#8)], p := { State.reset.p with n := true } }
      [0x4E#8, 0x00#8, 0x03#8]).map (fun t => (row t, peek t 0x0300#16)) =
      some (⟨0x00#8, 0x00#8, 0x00#8, 0xFD#8, 0x0203#16, flags 0 0 0 1 0 1, 6⟩, 0x7F#8) := by
  decide

/-- V-LG10, V-LG11. -/
theorem test_rol :
    (after { State.reset with a := 0x80#8, p := { State.reset.p with c := false } } [0x2A#8]).map row =
      some ⟨0x00#8, 0x00#8, 0x00#8, 0xFD#8, 0x0201#16, flags 0 0 0 1 1 1, 2⟩ ∧
    (after { State.reset with a := 0x40#8, p := { State.reset.p with c := true } } [0x2A#8]).map row =
      some ⟨0x81#8, 0x00#8, 0x00#8, 0xFD#8, 0x0201#16, flags 1 0 0 1 0 0, 2⟩ := by
  decide

/-- V-LG12. -/
theorem test_ror_accumulator :
    (after { State.reset with a := 0x01#8, p := { State.reset.p with c := false } } [0x6A#8]).map row =
      some ⟨0x00#8, 0x00#8, 0x00#8, 0xFD#8, 0x0201#16, flags 0 0 0 1 1 1, 2⟩ := by
  decide

/-- V-LG14. -/
theorem test_ror_absolute_x :
    (after { State.reset with x := 0x05#8, ram := [(0x0305, 0x02#8)], p := { State.reset.p with c := true } }
      [0x7E#8, 0x00#8, 0x03#8]).map (fun t => (row t, peek t 0x0305#16)) =
      some (⟨0x00#8, 0x05#8, 0x00#8, 0xFD#8, 0x0203#16, flags 1 0 0 1 0 0, 7⟩, 0x81#8) := by
  decide

/-- V-CT1. -/
theorem test_jmp_absolute :
    (after State.reset [0x4C#8, 0x00#8, 0xFF#8]).map row =
      some ⟨0x00#8, 0x00#8, 0x00#8, 0xFD#8, 0xFF00#16, flags 0 0 0 1 0 0, 3⟩ := by
  decide

/-- V-CT2. -/
theorem test_jmp_indirect_page_wrap :
    (after { State.reset with ram := [(0x02FF, 0x34#8), (0x0300, 0x56#8)] } [0x6C#8, 0xFF#8, 0x02#8]).map row =
      some ⟨0x00#8, 0x00#8, 0x00#8, 0xFD#8, 0x6C34#16, flags 0 0 0 1 0 0, 5⟩ := by
  decide

/-- V-CT4. -/
theorem test_jsr :
    (after State.reset [0x20#8, 0x00#8, 0x03#8]).map (fun t => (row t, peek t 0x01FD#16, peek t 0x01FC#16)) =
      some (⟨0x00#8, 0x00#8, 0x00#8, 0xFB#8, 0x0300#16, flags 0 0 0 1 0 0, 6⟩, 0x02#8, 0x02#8) := by
  decide

/-- V-CT5, V-CT6. -/
theorem test_rts :
    (after { State.reset with sp := 0xFB#8, ram := [(0x01FC, 0x02#8), (0x01FD, 0x02#8)] } [0x60#8]).map row =
      some ⟨0x00#8, 0x00#8, 0x00#8, 0xFD#8, 0x0203#16, flags 0 0 0 1 0 0, 6⟩ ∧
    (after { State.reset with sp := 0xFB#8, ram := [(0x01FC, 0xFF#8), (0x01FD, 0xFF#8)] } [0x60#8]).map row =
      some ⟨0x00#8, 0x00#8, 0x00#8, 0xFD#8, 0x0000#16, flags 0 0 0 1 0 0, 6⟩ := by
  decide

/-- V-CT7. -/
theorem test_brk :
    (after { State.reset with pc := 0x0300#16, p := { State.reset.p with i := false, c := true, d := true } }
      [0x00#8]).map (fun t => (row t, peek t 0x01FD#16, peek t 0x01FC#16, peek t 0x01FB#16)) =
      some (⟨0x00#8, 0x00#8, 0x00#8, 0xFA#8, 0x0000#16, flags 0 0 1 1 0 1, 7⟩, 0x03#8, 0x02#8, 0x39#8) := by
  decide

/-- V-CT8. -/
theorem test_rti :
    (after { State.reset with sp := 0xFA#8, ram := [(0x01FB, 0xF3#8), (0x01FC, 0x02#8), (0x01FD, 0x03#8)] }
      [0x40#8]).map row =
      some ⟨0x00#8, 0x00#8, 0x00#8, 0xFD#8, 0x0302#16, flags 1 1 0 0 1 1, 6⟩ := by
  decide

/-- V-CT9, V-CT10. -/
theorem test_bcc :
    (after { State.reset with p := { State.reset.p with c := false } } [0x90#8, 0x02#8]).map row =
      some ⟨0x00#8, 0x00#8, 0x00#8, 0xFD#8, 0x0204#16, flags 0 0 0 1 0 0, 3⟩ ∧
    (after { State.reset with p := { State.reset.p with c := true } } [0x90#8, 0x02#8]).map row =
      some ⟨0x00#8, 0x00#8, 0x00#8, 0xFD#8, 0x0202#16, flags 0 0 0 1 0 1, 2⟩ := by
  decide

/-- V-CT13. -/
theorem test_bcs_page_change :
    (after { State.reset with pc := 0x02F0#16, p := { State.reset.p with c := true } } [0xB0#8, 0x7F#8]).map row =
      some ⟨0x00#8, 0x00#8, 0x00#8, 0xFD#8, 0x0371#16, flags 0 0 0 1 0 1, 4⟩ := by
  decide

/-- V-CT11. -/
theorem test_beq_back :
    (after { State.reset with pc := 0x0210#16, p := { State.reset.p with z := true } } [0xF0#8, 0xFC#8]).map row =
      some ⟨0x00#8, 0x00#8, 0x00#8, 0xFD#8, 0x020E#16, flags 0 0 0 1 1 0, 3⟩ := by
  decide

/-- V-CT12, V-CT18. -/
theorem test_bne_page_change :
    (after { State.reset with pc := 0x0205#16, p := { State.reset.p with z := false } } [0xD0#8, 0xF0#8]).map row =
      some ⟨0x00#8, 0x00#8, 0x00#8, 0xFD#8, 0x01F7#16, flags 0 0 0 1 0 0, 4⟩ ∧
    (after { State.reset with pc := 0x0010#16, p := { State.reset.p with z := false } } [0xD0#8, 0x80#8]).map row =
      some ⟨0x00#8, 0x00#8, 0x00#8, 0xFD#8, 0xFF92#16, flags 0 0 0 1 0 0, 4⟩ := by
  decide

/-- V-CT14. -/
theorem test_bmi_offset_zero :
    (after { State.reset with p := { State.reset.p with n := true } } [0x30#8, 0x00#8]).map row =
      some ⟨0x00#8, 0x00#8, 0x00#8, 0xFD#8, 0x0202#16, flags 1 0 0 1 0 0, 3⟩ := by
  decide

/-- V-CT15. -/
theorem test_bpl_to_itself :
    (after { State.reset with p := { State.reset.p with n := false } } [0x10#8, 0xFE#8]).map row =
      some ⟨0x00#8, 0x00#8, 0x00#8, 0xFD#8, 0x0200#16, flags 0 0 0 1 0 0, 3⟩ := by
  decide

/-- V-CT16. -/
theorem test_bvc :
    (after { State.reset with pc := 0x0300#16, p := { State.reset.p with v := false } } [0x50#8, 0x80#8]).map row =
      some ⟨0x00#8, 0x00#8, 0x00#8, 0xFD#8, 0x0282#16, flags 0 0 0 1 0 0, 4⟩ := by
  decide

/-- V-CT17. -/
theorem test_bvs_not_taken :
    (after { State.reset with p := { State.reset.p with v := false } } [0x70#8, 0x10#8]).map row =
      some ⟨0x00#8, 0x00#8, 0x00#8, 0xFD#8, 0x0202#16, flags 0 0 0 1 0 0, 2⟩ := by
  decide

/-- V-FM1. -/
theorem test_clc :
    (after { State.reset with p := { State.reset.p with c := true } } [0x18#8]).map row =
      some ⟨0x00#8, 0x00#8, 0x00#8, 0xFD#8, 0x0201#16, flags 0 0 0 1 0 0, 2⟩ := by
  decide

/-- V-FM2. -/
theorem test_sec :
    (after State.reset [0x38#8]).map row =
      some ⟨0x00#8, 0x00#8, 0x00#8, 0xFD#8, 0x0201#16, flags 0 0 0 1 0 1, 2⟩ := by
  decide

/-- V-FM3. -/
theorem test_cli :
    (after State.reset [0x58#8]).map row =
      some ⟨0x00#8, 0x00#8, 0x00#8, 0xFD#8, 0x0201#16, flags 0 0 0 0 0 0, 2⟩ := by
  decide

/-- V-FM4. -/
theorem test_sei :
    (after { State.reset with p := { State.reset.p with i := false } } [0x78#8]).map row =
      some ⟨0x00#8, 0x00#8, 0x00#8, 0xFD#8, 0x0201#16, flags 0 0 0 1 0 0, 2⟩ := by
  decide

/-- V-FM5. -/
theorem test_cld :
    (after { State.reset with p := { State.reset.p with d := true } } [0xD8#8]).map row =
      some ⟨0x00#8, 0x00#8, 0x00#8, 0xFD#8, 0x0201#16, flags 0 0 0 1 0 0, 2⟩ := by
  decide

/-- V-FM6. -/
theorem test_sed :
    (after State.reset [0xF8#8]).map row =
      some ⟨0x00#8, 0x00#8, 0x00#8, 0xFD#8, 0x0201#16, flags 0 0 1 1 0 0, 2⟩ := by
  decide

/-- V-FM7. -/
theorem test_clv :
    (after { State.reset with p := { State.reset.p with v := true } } [0xB8#8]).map row =
      some ⟨0x00#8, 0x00#8, 0x00#8, 0xFD#8, 0x0201#16, flags 0 0 0 1 0 0, 2⟩ := by
  decide

/-- V-FM8. -/
theorem test_nop :
    (after State.reset [0xEA#8]).map row =
      some ⟨0x00#8, 0x00#8, 0x00#8, 0xFD#8, 0x0201#16, flags 0 0 0 1 0 0, 2⟩ := by
  decide

/-- V-FM9. -/
theorem test_undefined_kil :
    (after State.reset [0x02#8]).map (fun t => (row t, t.diag)) =
      some (⟨0x00#8, 0x00#8, 0x00#8, 0xFD#8, 0x0201#16, flags 0 0 0 1 0 0, 1⟩, [.illegalOpcode 0x0200#16 0x02#8]) := by
  decide

/-- V-FM10. -/
theorem test_undefined_one_byte :
    (after State.reset [0x0C#8, 0xA9#8, 0x05#8]).map (fun t => (row t, t.diag)) =
      some (⟨0x00#8, 0x00#8, 0x00#8, 0xFD#8, 0x0201#16, flags 0 0 0 1 0 0, 1⟩, [.illegalOpcode 0x0200#16 0x0C#8]) := by
  decide

/-! ## Memory map, ports, reset and host moves -/

/-- The configuration of V-MEM1 to V-MEM4 but for the ROM images' contents. -/
def smallRam : State :=
  { State.reset with cfg := { Config.default with ramSize := 0x1000, resetAddress := 0xFF00#16 } }

/-- V-MEM1, the bytes that do not depend on the images. -/
theorem test_map_reads :
    [0x0FFF#16, 0x1000#16, 0xFFFC#16, 0xFFFD#16, 0xFFFE#16, 0xFFFF#16, 0xF000#16, 0xD014#16].map (peek smallRam) =
      [0x00#8, 0x00#8, 0x00#8, 0xFF#8, 0x00#8, 0x00#8, 0x00#8, 0x00#8] := by
  decide

/-- V-MEM1, the first and last bytes of the images. -/
theorem test_map_reads_images :
    let s := { smallRam with
      cfg := { smallRam.cfg with
        romImage := 0x11#8 :: (Config.blankImage 250 ++ [0xFB#8])
        basicImage := [0xB0#8, 0xB1#8] } }
    [0xFF00#16, 0xFFFB#16, 0xE000#16, 0xE001#16].map (peek s) = [0x11#8, 0xFB#8, 0xB0#8, 0xB1#8] := by
  decide

/-- V-MEM2, V-MEM3. -/
theorem test_map_writes :
    peek (writeByte smallRam 0x0FFF#16 0xAA#8) 0x0FFF#16 = 0xAA#8 ∧
    (writeByte (writeByte smallRam 0x1000#16 0x55#8) 0xFFFC#16 0x55#8).diag =
      [.writeRejected 0x1000#16 0x55#8, .writeRejected 0xFFFC#16 0x55#8] := by
  decide

/-- V-IO1. -/
theorem test_keyboard :
    let s := { State.reset with keyboardLatch := some 0x41#8 }
    [peek s 0xD011#16, peek s 0xD010#16, peek (touch s 0xD010#16) 0xD010#16, peek (touch s 0xD010#16) 0xD011#16] =
      [0x80#8, 0xC1#8, 0x00#8, 0x00#8] := by
  decide

/-- V-IO5: glyphs, and three bytes that make no callback. -/
theorem test_display_glyphs :
    let t := [0x41#8, 0xC1#8, 0x07#8, 0x60#8, 0x7F#8].foldl (fun s v => writeByte s 0xD012#16 v) State.reset
    (t.display, t.column) = ([.emitGlyph 0x41#7, .emitGlyph 0x41#7], 2) := by
  decide

/-- V-IO6a, V-IO6c, V-IO7: the underscore policies and the wrap. -/
theorem test_display_columns :
    let at' (k : Nat) (u : UnderscorePolicy) : State :=
      { State.reset with column := k, cfg := { Config.default with underscorePolicy := u } }
    let put (s : State) (v : Byte) : List DisplayEvent × Nat :=
      let t := writeByte s 0xD012#16 v
      (t.display, t.column)
    put (at' 3 .erase) 0x5F#8 = ([.erasePreviousColumn], 2) ∧
    put (at' 3 .eraseThenEmit) 0x5F#8 = ([.erasePreviousColumn, .emitGlyph 0x5F#7], 3) ∧
    put (at' 39 .erase) 0x41#8 = ([.emitGlyph 0x41#7, .advanceLine], 0) := by
  decide

/-- V-IO9: busy until the clock is past the timestamp. -/
theorem test_display_busy :
    let t := writeByte { State.reset with clock := 10 } 0xD012#16 0x41#8
    t.nextReady = some 15 ∧
    [10, 15, 16].map (fun now => peek { t with clock := now } 0xD013#16) = [0x80#8, 0x80#8, 0x00#8] := by
  decide

/-- V-IO12: `INC $D010` consumes the key; its write is ignored. -/
theorem test_modify_keyboard :
    (after { State.reset with keyboardLatch := some 0x41#8 } [0xEE#8, 0x10#8, 0xD0#8]).map
        (fun t => (t.keyboardLatch, t.diag, t.p, t.cycles)) =
      some (none, [], flags 1 0 0 1 0 0, 6) := by
  decide

/-- V-RST1. -/
theorem test_reset :
    let t := resetMove { smallRam with
      a := 0x77#8, sp := 0x10#8, p := flags 1 1 1 1 1 1, keyboardLatch := some 0x41#8, cycles := 1234 }
    (row t, t.keyboardLatch) =
      (⟨0x00#8, 0x00#8, 0x00#8, 0xFD#8, 0xFF00#16, flags 0 0 0 1 0 0, 1234⟩, some 0x41#8) := by
  decide

/-- V-HOST1, V-HOST2, V-HOST3. -/
theorem test_bulk_moves :
    (bulkLoadMove smallRam 0x0FFE [0x01#8, 0x02#8, 0x03#8]).replies = [.rejected] ∧
    (bulkSaveMove (bulkLoadMove smallRam 0x0FFD [0x01#8, 0x02#8, 0x03#8]) 0x0FFD 0x0FFF).replies =
      [.loaded, .saved [0x01#8, 0x02#8, 0x03#8]] ∧
    (bulkSaveMove smallRam 0x0FFD 0x1000).replies = [.rejected] ∧
    (bulkSaveMove smallRam 0x0010 0x000F).replies = [.rejected] := by
  decide

/-! ## Witnesses: concrete states and operands that meet the hypotheses of each obligation, at the boundary values of
its clauses. `State.reset` stands in most: legal, booted, not faulted, the CPU's turn, RAM below 0x8000. -/

/-- The answer of a step, for the premises that say it is a next state. -/
def nextOf (o : Host.Outcome State Fault Refusal) : State :=
  match o with
  | .next t => t
  | _ => State.reset

theorem reset_legal : State.reset.cfg.legal = true := default_legal

theorem reset_running : Running State.reset := ⟨rfl, rfl⟩

theorem reset_cpuTurn : CpuTurn State.reset := .inl rfl

/-- `BRK`, the instruction of the reset state's empty RAM. -/
theorem reset_steps : step State.reset = .next (nextOf (step State.reset)) := by rfl

theorem witness_DecodeEncodeAgree :
    (Instr.lda (.mem (.indY 0xFF#8))).wf = true ∧ (Instr.undefined 0xFF#8).wf = true ∧ (Instr.asl .acc).wf = true := by
  decide

theorem witness_StepRunsTheDecodedInstruction :
    Running State.reset ∧ CpuTurn State.reset ∧
    decode (stream (turnTaken State.reset)) = .ok (.brk, [0x00#8, 0x00#8]) :=
  ⟨reset_running, reset_cpuTurn, by decide⟩

/-- The three-byte case, across the end of RAM. -/
theorem witness_StepRunsTheDecodedInstruction_long :
    let s := { State.reset with pc := 0x7FFF#16, ram := [(0x7FFF, 0xAD#8)] }
    Running s ∧ CpuTurn s ∧ decode (stream (turnTaken s)) = .ok (.lda (.mem (.abs 0x0000#16)), []) :=
  ⟨⟨rfl, rfl⟩, .inl rfl, by decide⟩

theorem witness_FetchReadsMemoryAtPc :
    let s := { State.reset with pc := 0xFFFF#16 }
    NoPort s.cfg s.pc ∧ NoPort s.cfg (s.pc + 1#16) ∧ NoPort s.cfg (s.pc + 2#16) :=
  ⟨.inr (by decide), .inl (by decide), .inl (by decide)⟩

/-- Each of the four clauses: before the first reset, faulted, running, and a host move. -/
theorem witness_StepStopsOnlyBeforeResetOrAfterFault :
    (CpuTurn { State.reset with booted := false } ∧ { State.reset with booted := false }.booted = false) ∧
    (CpuTurn { State.reset with faulted := true } ∧ { State.reset with faulted := true }.booted = true ∧
      { State.reset with faulted := true }.faulted = true) ∧
    Running State.reset ∧ ¬ CpuTurn { State.reset with agenda := [.host .reset] } :=
  ⟨⟨.inl rfl, rfl⟩, ⟨.inl rfl, rfl, rfl⟩, reset_running, by rintro (h | h) <;> cases h⟩

theorem witness_RunsNeverStop : Running State.reset ∧ State.reset.cfg.illegalPolicy = .nopReport :=
  ⟨reset_running, rfl⟩

theorem witness_StepKeepsInvariant : Inv State.reset ∧ step State.reset = .next (nextOf (step State.reset)) :=
  ⟨{ legal := reset_legal, ramWf := rfl, ramIn := by simp [State.reset], column := by decide,
     ready := by simp [State.reset] }, reset_steps⟩

theorem witness_ParametersNeverChange : step State.reset = .next (nextOf (step State.reset)) := reset_steps

theorem witness_LogsOnlyGrow : step State.reset = .next (nextOf (step State.reset)) := reset_steps

theorem witness_CpuStepLeavesHostAlone :
    CpuTurn State.reset ∧ step State.reset = .next (nextOf (step State.reset)) :=
  ⟨reset_cpuTurn, reset_steps⟩

/-- A CPU step, and a host move. -/
theorem witness_CyclesOfAStep :
    (step State.reset = .next (nextOf (step State.reset)) ∧ CpuTurn State.reset) ∧
    let s := { State.reset with agenda := [.host (.advanceClock 1)] }
    step s = .next (nextOf (step s)) ∧ ¬ CpuTurn s :=
  ⟨⟨reset_steps, reset_cpuTurn⟩, rfl, by rintro (h | h) <;> cases h⟩

/-- `NOP` meets every clause's premise. -/
theorem witness_RegistersChangeOnlyByTheirWriters :
    writesA .nop = false ∧ writesX .nop = false ∧ writesY .nop = false ∧ writesS .nop = false ∧
    writesPC .nop = false := by
  decide

theorem witness_FlagsChangeOnlyByTheirWriters :
    writesNZ .nop = false ∧ writesV .nop = false ∧ writesD .nop = false ∧ writesI .nop = false ∧
    writesC .nop = false := by
  decide

/-- A store's neighbours, and a push's slot wrapped to the top of the stack page. -/
theorem witness_MemoryChangesOnlyWhereStored :
    Memory.wf State.reset.ram = true ∧
    (NoPort State.reset.cfg 0x02FF#16 ∧ 0x02FF#16 ∉ storedAddresses (.sta (.abs 0x0300#16)) State.reset) ∧
    (NoPort State.reset.cfg 0x0301#16 ∧ 0x0301#16 ∉ storedAddresses (.sta (.abs 0x0300#16)) State.reset) ∧
    storedAddresses .brk { State.reset with sp := 0x01#8 } = [0x0101#16, 0x0100#16, 0x01FF#16] :=
  ⟨rfl, ⟨.inl (by decide), by decide⟩, ⟨.inl (by decide), by decide⟩, by decide⟩

theorem witness_DevicesChangeOnlyWhereStored :
    (∀ op, Instr.sta (.abs 0x7FFF#16) ≠ .undefined op) ∧
    ∀ a ∈ storedAddresses (.sta (.abs 0x7FFF#16)) State.reset, a.toNat < State.reset.cfg.ramSize := by
  refine ⟨fun op h => (by cases h), fun a ha => ?_⟩
  rw [show storedAddresses (.sta (.abs 0x7FFF#16)) State.reset = [0x7FFF#16] by decide, List.mem_singleton] at ha
  subst ha
  decide

/-- Both ends of every range. -/
theorem witness_ReadFollowsTheMemoryMap :
    let c := Config.default
    State.reset.cfg.legal = true ∧ State.reset.cfg = c ∧
    (∀ a ∈ [0x0000#16, 0x7FFF#16], a.toNat < c.ramSize) ∧
    c.ports = [0xD010#16, 0xD011#16, 0xD012#16, 0xD013#16] ∧
    (∀ a ∈ [0xE000#16, 0xEFFF#16], 0xE000 ≤ a.toNat ∧ a.toNat ≤ 0xEFFF) ∧
    (∀ a ∈ [0xFF00#16, 0xFFFB#16], 0xFF00 ≤ a.toNat ∧ a.toNat ≤ 0xFFFB) ∧
    ∀ a ∈ [0x8000#16, 0xD00F#16, 0xD014#16, 0xDFFF#16, 0xF000#16, 0xFEFF#16, 0xFFFE#16, 0xFFFF#16],
      c.ramSize ≤ a.toNat ∧ a ∉ c.ports ∧ ¬ (0xE000 ≤ a.toNat ∧ a.toNat ≤ 0xEFFF) ∧
        ¬ (0xFF00 ≤ a.toNat ∧ a.toNat ≤ 0xFFFD) :=
  ⟨reset_legal, rfl, by simp [Config.default, Config.ports]⟩

theorem witness_OnlyKeyboardDataReadsHaveEffects :
    State.reset.cfg.legal = true ∧ State.reset.cfg.portKbd = 0xD010#16 ∧ 0xD011#16 ≠ State.reset.cfg.portKbd :=
  ⟨reset_legal, by decide⟩

/-- Unmapped, secondary ROM, ROM, and the two vector bytes. -/
theorem witness_RejectedWritesAreOnlyReported :
    let c := State.reset.cfg
    c.legal = true ∧
    ∀ a ∈ [0x8000#16, 0xD014#16, 0xE000#16, 0xEFFF#16, 0xFF00#16, 0xFFFB#16, 0xFFFC#16, 0xFFFD#16, 0xFFFE#16,
      0xFFFF#16], c.ramSize ≤ a.toNat ∧ a ∉ c.ports :=
  ⟨reset_legal, by simp [State.reset, Config.default, Config.ports]⟩

theorem witness_RamReadsBackWhatWasWritten :
    Memory.wf State.reset.ram = true ∧ (0x7FFF#16).toNat < State.reset.cfg.ramSize ∧ 0x7FFE#16 ≠ 0x7FFF#16 ∧
    State.reset.cfg.ramSize ≤ (0x8000#16).toNat ∧ 0x8000#16 ∉ State.reset.cfg.ports :=
  ⟨rfl, by decide⟩

theorem witness_KeyboardPortsFollowTheLatch :
    State.reset.cfg.legal = true ∧ State.reset.keyboardLatch = none ∧
    { State.reset with keyboardLatch := some 0x41#8 }.cfg.legal = true ∧
    { State.reset with keyboardLatch := some 0x41#8 }.keyboardLatch = some 0x41#8 :=
  ⟨reset_legal, rfl, reset_legal, rfl⟩

/-- A step that sets the latch, and one that clears it (`LDA $D010`). -/
theorem witness_KeyboardLatchIsSetOnlyByTheHost :
    (let s := { State.reset with agenda := [.host (.setKey 0x41#8)] }
     step s = .next (nextOf (step s)) ∧ (nextOf (step s)).keyboardLatch = some 0x41#8) ∧
    (let s := placeBytes { State.reset with keyboardLatch := some 0x41#8 } 0x0200#16 [0xAD#8, 0x10#8, 0xD0#8]
     step s = .next (nextOf (step s)) ∧ (nextOf (step s)).keyboardLatch = none) :=
  ⟨⟨rfl, rfl⟩, ⟨rfl, by decide⟩⟩

/-- Each row of the table at its bounds: carriage return, underscore, the first and last glyph, and their neighbours. -/
theorem witness_DisplayDataWriteFollowsTheTable :
    State.reset.cfg.legal = true ∧ (0x8D#8).toNat % 128 = 0x0D ∧ (0xDF#8).toNat % 128 = 0x5F ∧
    (∀ v ∈ [0x20#8, 0xA0#8, 0x5E#8, 0xDE#8], 0x20 ≤ v.toNat % 128 ∧ v.toNat % 128 ≤ 0x5E) ∧
    ∀ v ∈ [0x0C#8, 0x0E#8, 0x1F#8, 0x60#8, 0x7F#8], v.toNat % 128 ≠ 0x0D ∧ v.toNat % 128 ≠ 0x5F ∧
      ¬ (0x20 ≤ v.toNat % 128 ∧ v.toNat % 128 ≤ 0x5E) :=
  ⟨reset_legal, by simp⟩

/-- No timestamp; the last busy tick; the first ready one. -/
theorem witness_DisplayIsBusyUntilTheDelayHasPassed :
    State.reset.cfg.legal = true ∧ State.reset.clock ≤ 5 ∧ State.reset.clock ≤ 6 ∧ State.reset.nextReady = none ∧
    let s := { State.reset with nextReady := some 0 }
    s.cfg.legal = true ∧ s.nextReady = some 0 :=
  ⟨reset_legal, by decide, by decide, rfl, reset_legal, rfl⟩

theorem witness_InertPortAccesses :
    State.reset.cfg.legal = true ∧ 0xD010#16 ∈ State.reset.cfg.ports ∧ 0xD013#16 ∈ State.reset.cfg.ports :=
  ⟨reset_legal, by decide⟩

theorem witness_ResetVectorIsTheResetAddress : State.reset.cfg.legal = true := reset_legal

/-- V-SRC3, V-RST3: 0xD00F and 0 construct, 0xD010 does not. -/
theorem witness_ConstructionRequiresLegalParameters :
    1 ≤ Config.default.windowWidth ∧ { Config.default with ramSize := 0xD00F }.legal = true ∧
    { Config.default with ramSize := 0 }.legal = true ∧ { Config.default with ramSize := 0xD010 }.legal = false := by
  decide +kernel

theorem witness_ResetSetsTheRegisters : State.reset.cfg.legal = true := reset_legal

theorem witness_ResetIsIdempotent : State.reset.cfg.legal = true := reset_legal

/-- The last load that fits and the first that does not. -/
theorem witness_BulkLoadIsAllOrNothing :
    Memory.wf State.reset.ram = true ∧ 0x7FFF + [0x01#8].length ≤ State.reset.cfg.ramSize ∧
    State.reset.cfg.ramSize < 0x7FFF + [0x01#8, 0x02#8].length ∧ [0x01#8][0]? = some 0x01#8 :=
  ⟨rfl, by decide, by decide, rfl⟩

/-- The last byte of RAM, one past it, and a start above the end. -/
theorem witness_BulkSaveAnswersRam :
    Memory.wf State.reset.ram = true ∧ (0x7FFF < State.reset.cfg.ramSize ∧ 0x7FFF ≤ 0x7FFF) ∧
    State.reset.cfg.ramSize ≤ 0x8000 ∧ 0x000F < 0x0010 :=
  ⟨rfl, by decide⟩

/-- V-AR7's operands, and the largest digits. -/
theorem witness_DecimalAdcAddsBcd :
    let s := { State.reset with a := 0x99#8, p := { State.reset.p with d := true } }
    s.p.d = true ∧ s.cfg.decimalMode = .nmos ∧ IsBcd s.a ∧ IsBcd (operand (.imm 0x99#8) s) :=
  ⟨rfl, rfl, ⟨by decide, by decide⟩, ⟨by decide, by decide⟩⟩

/-- V-AR15's operands. -/
theorem witness_DecimalSbcSubtractsBcd :
    let s := { State.reset with p := { State.reset.p with d := true, c := true } }
    s.p.d = true ∧ s.cfg.decimalMode = .nmos ∧ IsBcd s.a ∧ IsBcd (operand (.imm 0x01#8) s) :=
  ⟨rfl, rfl, ⟨by decide, by decide⟩, ⟨by decide, by decide⟩⟩

/-- At the bottom of the stack page, where the second slot wraps. -/
theorem witness_PullsUndoPushes :
    let s := { State.reset with sp := 0x00#8 }
    Memory.wf s.ram = true ∧ (slot s.sp).toNat < s.cfg.ramSize ∧ (slot (s.sp - 1#8)).toNat < s.cfg.ramSize :=
  ⟨rfl, by decide⟩

theorem witness_RtiUndoesBrk :
    let s := { State.reset with sp := 0x01#8 }
    s.cfg.legal = true ∧ Memory.wf s.ram = true ∧ (slot s.sp).toNat < s.cfg.ramSize ∧
    (slot (s.sp - 1#8)).toNat < s.cfg.ramSize ∧ (slot (s.sp - 2#8)).toNat < s.cfg.ramSize :=
  ⟨reset_legal, rfl, by decide⟩

/-- Under both policies. -/
theorem witness_UndefinedOpcodeIsANop :
    let at' (p : IllegalPolicy) : State :=
      { State.reset with ram := [(0x0200, 0xFF#8)], cfg := { Config.default with illegalPolicy := p } }
    ∀ p, Running (at' p) ∧ CpuTurn (at' p) ∧ NoPort (at' p).cfg (at' p).pc ∧
      peek (at' p) (at' p).pc ∈ undefinedOpcodes :=
  fun p => ⟨⟨rfl, rfl⟩, .inl rfl, .inl (by show (0x0200#16).toNat < 0x8000; decide), by cases p <;> decide⟩

end Sys2Proof.Tests
end

/-! PROOFS. The state's statements (10_state.md): what a step of any agent keeps, the frames of every instruction, the
reset state, and the display-data write. -/

namespace Sys2Proof.Proofs

open Sys2Proof.Machine Sys2Proof.Claims

/-! ### The step -/

/-- A step that answers a next state was a CPU step that did, or a move of the host or the clock. -/
theorem step_next_cases {s t : State} (h : step s = .next t) :
    (CpuTurn s ∧ cpuStep (turnTaken s) = .next t) ∨ (¬ CpuTurn s ∧ ∃ m, t = hostMove m (turnTaken s)) := by
  rcases step_cases s with ⟨hc, hs⟩ | ⟨m, rest, ha, hs⟩
  · exact .inl ⟨hc, hs ▸ h⟩
  · rw [hs, Host.Outcome.next.injEq] at h
    exact .inr ⟨by simp [CpuTurn, ha], m, h.symm⟩

/-- A step that answers a next state at the CPU's turn is a CPU step. -/
theorem cpuStep_of_cpuTurn {s t : State} (hc : CpuTurn s) (h : step s = .next t) :
    cpuStep (turnTaken s) = .next t := by
  rcases step_next_cases h with ⟨-, hcpu⟩ | ⟨hn, -⟩
  · exact hcpu
  · exact absurd hc hn

theorem turnTaken_inv {s : State} (h : Inv s) : Inv (turnTaken s) := h.congr rfl rfl rfl rfl rfl

/-- Settles O9: the CPU's step by what an instruction can do, the host's and the clock's moves one by one. -/
theorem stepKeepsInvariant : Obligations.StepKeepsInvariant := by
  intro s t hs h
  rcases step_next_cases h with ⟨-, hcpu⟩ | ⟨-, m, rfl⟩
  · obtain ⟨-, -, he⟩ := cpuStep_effect hcpu
    exact he.inv (turnTaken_inv hs)
  · exact hostMove_inv m (turnTaken_inv hs)

/-- Settles O12, from the effect of an instruction and the frame of a host move. -/
theorem logsOnlyGrow : Obligations.LogsOnlyGrow := by
  intro s t h
  rcases step_next_cases h with ⟨-, hcpu⟩ | ⟨-, m, rfl⟩
  · obtain ⟨-, -, he⟩ := cpuStep_effect hcpu
    exact ⟨he.diag, he.display⟩
  · obtain ⟨-, -, -, -, hdiag, hdisplay, -⟩ := hostMove_frame m (turnTaken s)
    exact ⟨hdiag, hdisplay⟩

/-- Settles O13: what a CPU step can do outside the registers, from the state whose agenda entry is used up. -/
theorem cpuStepLeavesHostAlone : Obligations.CpuStepLeavesHostAlone := by
  intro s t hc h
  obtain ⟨-, -, he⟩ := cpuStep_effect (cpuStep_of_cpuTurn hc h)
  exact ⟨he.clock, he.booted, he.replies, he.agenda, he.latch⟩

/-- Settles O11: neither an instruction nor a host move writes the configuration. -/
theorem parametersNeverChange : Obligations.ParametersNeverChange := by
  intro s t h
  rcases step_next_cases h with ⟨-, hcpu⟩ | ⟨-, m, rfl⟩
  · obtain ⟨-, -, he⟩ := cpuStep_effect hcpu
    exact he.cfg
  · obtain ⟨hcfg, -⟩ := hostMove_frame m (turnTaken s)
    exact hcfg

/-! ### The reset state -/

/-- Reading the reset vector of a legal configuration gives the reset address and has no side effect (R457). -/
theorem readWord_resetVector {s : State} (h : s.cfg.legal = true) :
    readWord 0xFFFC#16 s = { val := s.cfg.resetAddress, st := s } := by
  obtain ⟨hlo, hlo'⟩ := fixed_range h (a := 0xFFFC#16) (.inr (by decide))
  obtain ⟨hhi, hhi'⟩ := fixed_range h (a := 0xFFFD#16) (.inr (by decide))
  have rlo : regionOf s.cfg 0xFFFC#16 = .vectorLow := (regionOf_fixed hlo hlo').trans (by decide)
  have rhi : regionOf s.cfg 0xFFFD#16 = .vectorHigh := (regionOf_fixed hhi hhi').trans (by decide)
  simp [readWord, readByte, peek, touch, rlo, rhi, hiLo_halves]

/-- The reset state meets the invariant: a legal configuration, empty RAM, the cursor at the left, no timestamp. -/
theorem reset_inv : Inv State.reset where
  legal := default_legal
  ramWf := rfl
  ramIn := nofun
  column := by decide
  ready := nofun

/-- What power-on leaves in the fields `reset()` does not write, and zeros in the registers it does (log 4). -/
def zeroPowerOn : PowerOn where
  a      := 0x00#8
  x      := 0x00#8
  y      := 0x00#8
  sp     := 0x00#8
  pc     := 0x0000#16
  p      := resetFlags
  ram    := []
  clock  := 0
  trace  := { lastPC := 0x0000#16, lastOpcode := 0x00#8 }
  agenda := []

/-- Settles O10: the construction is the one from `zeroPowerOn`. -/
theorem resetMeetsInvariant : Obligations.ResetMeetsInvariant := by
  refine ⟨reset_inv, zeroPowerOn, atConstruction Config.default zeroPowerOn, ?_, rfl, ?_⟩
  · exact if_pos default_legal
  · have hv := readWord_resetVector (s := atConstruction Config.default zeroPowerOn) default_legal
    rw [resetMove, hv]
    rfl

/-! ### The accesses of an instruction -/

/-- What an instruction is made of (R186): reads, writes to the addresses of `W`, and updates of the registers, the
flags and the cycle counter. -/
inductive Access (W : List Addr) (s : State) : State → Prop where
  | refl : Access W s s
  | regs {t : State} (h : Access W s t) (a x y sp : Byte) (pc : Addr) (p : Flags) (n : Nat) :
      Access W s { t with a := a, x := x, y := y, sp := sp, pc := pc, p := p, cycles := n }
  | reads {t u : State} (h : Access W s t) (hr : OnlyReads t u) : Access W s u
  | write {t : State} (h : Access W s t) {a : Addr} (v : Byte) (ha : a ∈ W) : Access W s (writeByte t a v)

namespace Access

variable {W : List Addr} {s t : State}

/-- No access writes the configuration, the opcode trace or the faulted bit. -/
theorem fixed (h : Access W s t) : t.cfg = s.cfg ∧ t.trace = s.trace ∧ t.faulted = s.faulted := by
  induction h with
  | refl => exact ⟨rfl, rfl, rfl⟩
  | regs _ _ _ _ _ _ _ _ ih => exact ih
  | reads _ hr ih => obtain ⟨l, -, rfl⟩ := hr; exact ih
  | write _ _ _ ih => simpa using ih

/-- If all the addresses written to are RAM, the display and the diagnostic log stay as they are (R50, R92). -/
theorem quiet (h : Access W s t) (hW : ∀ a ∈ W, a.toNat < s.cfg.ramSize) :
    t.display = s.display ∧ t.nextReady = s.nextReady ∧ t.column = s.column ∧ t.diag = s.diag := by
  induction h with
  | refl => exact ⟨rfl, rfl, rfl, rfl⟩
  | regs _ _ _ _ _ _ _ _ ih => exact ih
  | reads _ hr ih => obtain ⟨l, -, rfl⟩ := hr; exact ih
  | write ht v ha ih =>
    obtain ⟨hcfg, -, -⟩ := ht.fixed
    rw [writeByte_of_ram v (hcfg ▸ hW _ ha)]
    exact ih

/-! The shared operations as accesses. -/

theorem readThen (o : ReadOperand) (s : State) (a x y : Byte) (p : Flags) (n : Nat) :
    Access W s { (readOperand o s).st with a := a, x := x, y := y, p := p, cycles := n } :=
  (refl.reads (readOperand_onlyReads o s)).regs _ _ _ _ _ _ _

theorem store {m : MemOperand} (v : Byte) (h : (resolve m s).ea ∈ W) : Access W s (store m v s) :=
  ((refl.reads (resolve_onlyReads m s)).write v h).regs _ _ _ _ _ _ _

theorem modifyMem {m : MemOperand} (f : Byte → Byte) (h : (resolve m s).ea ∈ W) : Access W s (modifyMem m f s).st :=
  (((refl.reads (resolve_onlyReads m s)).reads (touch_onlyReads _ _)).write _ h).regs _ _ _ _ _ _ _

theorem modifyOperand (o : ShiftOperand) (f : Byte → Byte) (s : State)
    (h : ∀ m, memoryOf o = some m → (resolve m s).ea ∈ W) : Access W s (modifyOperand o f s).st := by
  cases o with
  | acc => exact refl.regs _ _ _ _ _ _ _
  | mem m => exact modifyMem f (h m rfl)

theorem push (h : Access W s t) (v : Byte) (ht : stackAddr t.sp ∈ W) : Access W s (push t v) :=
  (h.write v ht).regs _ _ _ _ _ _ _

theorem pull (h : Access W s t) : Access W s (pull t).st :=
  (h.regs t.a t.x t.y (t.sp + 1#8) t.pc t.p t.cycles).reads (touch_onlyReads _ _)

theorem pullWord (h : Access W s t) : Access W s (pullWord t).st := h.pull.pull

theorem pushWord (w : Addr) (h0 : stackAddr s.sp ∈ W) (h1 : stackAddr (s.sp - 1#8) ∈ W) :
    Access W s (pushWord s w) :=
  (refl.push (highByte w) h0).push (lowByte w) (by simpa using h1)

theorem trapEntry (ret : Addr) (h0 : stackAddr s.sp ∈ W) (h1 : stackAddr (s.sp - 1#8) ∈ W)
    (h2 : stackAddr (s.sp - 2#8) ∈ W) : Access W s (trapEntry s ret) := by
  have hp : Access W s (Machine.push (Machine.pushWord s ret) s.p.pushed) :=
    (pushWord ret h0 h1).push _ (by simpa using h2)
  exact ((hp.regs _ _ _ _ _ _ _).reads (readWord_onlyReads _ _)).regs _ _ _ _ _ _ _

theorem trapReturn (s : State) : Access W s (trapReturn s) :=
  (refl.pull.regs _ _ _ _ _ _ _).pullWord.regs _ _ _ _ _ _ _

theorem branch (taken : Bool) (off : Byte) (s : State) : Access W s (branch taken off s) := by
  unfold Machine.branch
  dsimp only
  split <;> exact refl.regs _ _ _ _ _ _ _

end Access

/-- The stack slot of the operations is the slot of the statements (R87). -/
theorem stackAddr_eq_slot (sp : Byte) : stackAddr sp = slot sp := by
  apply BitVec.eq_of_toNat_eq
  have := sp.isLt
  simp [stackAddr_toNat, slot]
  omega

theorem stackAddr_mem_pushedSlots {n k : Nat} (sp : Byte) (h : k < n) :
    stackAddr (sp - BitVec.ofNat 8 k) ∈ pushedSlots n sp :=
  List.mem_map.mpr ⟨k, List.mem_range.mpr h, (stackAddr_eq_slot _).symm⟩

/-- Every documented instruction completes, by reads, register updates and writes to its stored addresses alone. -/
theorem exec_access (i : Instr) (s : State) (hi : ∀ op, i ≠ .undefined op) :
    ∃ t, exec i s = .next t ∧ Access (storedAddresses i s) s t := by
  have slot0 {n : Nat} (hn : 0 < n) : stackAddr s.sp ∈ pushedSlots n s.sp := by
    simpa using stackAddr_mem_pushedSlots s.sp hn
  cases i
  case undefined op => exact absurd rfl (hi op)
  case lda o | ldx o | ldy o | adc o | sbc o | cmp o | cpx o | cpy o | and o | ora o | eor o =>
    exact ⟨_, rfl, .readThen o s _ _ _ _ _⟩
  case bit m => exact ⟨_, rfl, (Access.refl.reads (readMemOperand_onlyReads m s)).regs _ _ _ _ _ _ _⟩
  case sta m | stx m | sty m => exact ⟨_, rfl, .store _ (by simp [storedAddresses, storedOperand])⟩
  case inc m | dec m =>
    exact ⟨_, rfl, (Access.modifyMem _ (by simp [storedAddresses, storedOperand])).regs _ _ _ _ _ _ _⟩
  case asl o | lsr o | rol o | ror o =>
    refine ⟨_, rfl, (Access.modifyOperand o _ s fun m hm => ?_).regs _ _ _ _ _ _ _⟩
    simp [storedAddresses, storedOperand, hm]
  case pha | php => exact ⟨_, rfl, (Access.refl.push _ (slot0 (by decide))).regs _ _ _ _ _ _ _⟩
  case pla | plp => exact ⟨_, rfl, Access.refl.pull.regs _ _ _ _ _ _ _⟩
  case jmp t => exact ⟨_, rfl, (Access.refl.reads (jumpTarget_onlyReads t s)).regs _ _ _ _ _ _ _⟩
  case jsr w =>
    exact ⟨_, rfl, (Access.pushWord _ (slot0 (by decide))
      (stackAddr_mem_pushedSlots s.sp (by decide : 1 < 2))).regs _ _ _ _ _ _ _⟩
  case rts => exact ⟨_, rfl, Access.refl.pullWord.regs _ _ _ _ _ _ _⟩
  case brk =>
    exact ⟨_, rfl, (Access.trapEntry _ (slot0 (by decide)) (stackAddr_mem_pushedSlots s.sp (by decide : 1 < 3))
      (stackAddr_mem_pushedSlots s.sp (by decide : 2 < 3))).regs _ _ _ _ _ _ _⟩
  case rti => exact ⟨_, rfl, (Access.trapReturn s).regs _ _ _ _ _ _ _⟩
  case bcc off | bcs off | beq off | bne off | bmi off | bpl off | bvc off | bvs off =>
    exact ⟨_, rfl, .branch _ off s⟩
  all_goals exact ⟨_, rfl, Access.refl.regs _ _ _ _ _ _ _⟩

/-- An undefined opcode reports itself, takes one cycle, and under `IllegalPolicy = fault` sets the faulted bit (R338,
R339). -/
theorem exec_undefined (op : Byte) (s : State) :
    exec (.undefined op) s = .next { s with
      diag := s.diag ++ [.illegalOpcode (s.pc - 1#16) op]
      cycles := s.cycles + 1
      faulted := s.faulted || decide (s.cfg.illegalPolicy = .fault) } := by
  cases hp : s.cfg.illegalPolicy <;>
    simp [exec, execUndefined, hp, enterFaulted, State.report, State.addCycles]

/-- Settles O18: an undefined opcode by what it answers, every other instruction by its accesses. -/
theorem devicesChangeOnlyWhereStored : Obligations.DevicesChangeOnlyWhereStored := by
  intro i s
  by_cases hi : ∃ op, i = .undefined op
  · obtain ⟨op, rfl⟩ := hi
    exact ⟨_, exec_undefined op s, ⟨rfl, rfl, rfl, rfl, rfl, rfl⟩, .inl rfl, fun h => absurd rfl (h op),
      fun _ => ⟨rfl, rfl, rfl, fun h => absurd rfl (h op)⟩⟩
  · obtain ⟨t, ht, ha⟩ := exec_access i s fun op h => hi ⟨op, h⟩
    obtain ⟨u, hu, he⟩ := exec_effect i s
    obtain rfl : t = u := Host.Outcome.next.inj (ht.symm.trans hu)
    obtain ⟨hcfg, htrace, hfaulted⟩ := ha.fixed
    refine ⟨t, ht, ⟨hcfg, htrace, he.clock, he.booted, he.agenda, he.replies⟩, he.latch, fun _ => hfaulted,
      fun hW => ?_⟩
    obtain ⟨hdisplay, hready, hcolumn, hdiag⟩ := ha.quiet hW
    exact ⟨hdisplay, hready, hcolumn, fun _ => hdiag⟩

/-! ### Cycles -/

/-- A cycle count an instruction can have (R465). -/
abbrev Counted (n : Nat) : Prop := 1 ≤ n ∧ n ≤ 7

theorem readCycles_counted (m : Mode) (crossed : Bool) : Counted (readCycles m crossed) := by
  cases m <;> cases crossed <;> decide

theorem writeCycles_counted (m : MemOperand) : Counted (writeCycles m.mode) := by
  cases m <;> simp [Counted, MemOperand.mode, writeCycles]

/-- The modes of the shifts, among which those of INC and DEC are, all have a cycle count (R250, R274). -/
theorem modifyCycles_counted : ∀ m ∈ shiftModes, Counted (modifyCycles m) := by decide

theorem jumpCycles_counted (t : JumpOperand) : Counted (jumpCycles t) := by
  cases t <;> simp [Counted, jumpCycles]

theorem readOperand_counted (o : ReadOperand) (s : State) : Counted (readOperand o s).cycles := by
  cases o with
  | imm b => exact readCycles_counted .immediate false
  | mem m => exact readCycles_counted m.mode _

theorem stepMemory_cycles (m : MemOperand) (f : Byte → Byte) (s : State) :
    (stepMemory m f s).cycles = s.cycles + modifyCycles m.mode :=
  modifyMem_cycles m f s

theorem branch_counted (taken : Bool) (off : Byte) (s : State) :
    ∃ n, Counted n ∧ (branch taken off s).cycles = s.cycles + n := by
  cases taken with
  | false => exact ⟨2, by decide, rfl⟩
  | true =>
    refine ⟨if page (branchTarget s.pc off) = page s.pc then 3 else 4, ?_, rfl⟩
    split <;> decide

theorem fetchInstr_cycles (s : State) : (fetchInstr s).st.cycles = s.cycles := by
  have h (t : State) : (fetchByte t).st.cycles = t.cycles := by simp [fetchByte, readByte]
  unfold fetchInstr
  dsimp only
  split <;> simp [h]

/-- The instructions of a row of the opcode map, whatever the operand bytes, are well formed. -/
def ShapeWf : Shape → Prop
  | .one i => i.wf = true
  | .two f => ∀ b, (f b).wf = true
  | .three f => ∀ w, (f w).wf = true

theorem opcodeMap_wf : ∀ row ∈ opcodeMap, ShapeWf row.2 := by
  simp only [opcodeMap, opcodeRow0, opcodeRow1, opcodeRow2, opcodeRow3, opcodeRow4, opcodeRow5, opcodeRow6,
    opcodeRow7, opcodeRow8, opcodeRow9, opcodeRowA, opcodeRowB, opcodeRowC, opcodeRowD, opcodeRowE, opcodeRowF,
    List.forall_mem_append, List.forall_mem_cons, List.not_mem_nil, ShapeWf]
  simp [Instr.wf, aluModes, shiftModes, ReadOperand.mode, MemOperand.mode, ShiftOperand.mode]

theorem shapeOf_wf {op : Byte} {sh : Shape} (h : shapeOf op = some sh) : ShapeWf sh :=
  opcodeMap_wf _ (mem_opcodeMap h)

/-- Every instruction the fetch gives is well formed (R147). -/
theorem fetchInstr_wf (s : State) : (fetchInstr s).val.wf = true := by
  cases h : shapeOf (fetchByte s).val with
  | none =>
    rw [fetchInstr_undefined h]
    exact List.contains_iff_mem.mpr ((shapeOf_eq_none_iff_undefined _).mp h)
  | some sh =>
    cases sh with
    | one i => rw [fetchInstr_one h]; exact shapeOf_wf h
    | two f => rw [fetchInstr_two h]; exact shapeOf_wf h _
    | three f => rw [fetchInstr_three h]; exact shapeOf_wf h _

/-- Every well-formed instruction takes 1 to 7 cycles (R465). -/
theorem exec_counted {i : Instr} (s : State) (hi : i.wf = true) :
    ∃ t n, exec i s = .next t ∧ Counted n ∧ t.cycles = s.cycles + n := by
  cases i
  case lda o | ldx o | ldy o | adc o | sbc o | cmp o | cpx o | cpy o | and o | ora o | eor o =>
    exact ⟨_, _, rfl, readOperand_counted o s, congrArg (· + _) (readOperand_cycles o s)⟩
  case bit m => exact ⟨_, _, rfl, readOperand_counted (.mem m) s, congrArg (· + _) (readMemOperand_cycles m s)⟩
  case sta m | stx m | sty m => exact ⟨_, _, rfl, writeCycles_counted m, store_cycles m _ s⟩
  case inc m | dec m =>
    have hm : m.mode ∈ shiftModes := by cases m <;> simp_all [Instr.wf, MemOperand.mode, shiftModes]
    exact ⟨_, _, rfl, modifyCycles_counted _ hm, stepMemory_cycles m _ s⟩
  case asl o | lsr o | rol o | ror o =>
    exact ⟨_, _, rfl, modifyCycles_counted _ (List.contains_iff_mem.mp hi), modifyOperand_cycles o _ s⟩
  case jmp t =>
    exact ⟨_, _, rfl, jumpCycles_counted t, congrArg (· + jumpCycles t) (jumpTarget_cycles t s)⟩
  case bcc off | bcs off | beq off | bne off | bmi off | bpl off | bvc off | bvs off =>
    obtain ⟨n, hn, h⟩ := branch_counted _ off s
    exact ⟨_, n, rfl, hn, h⟩
  case undefined op => exact ⟨_, 1, exec_undefined op s, by decide, rfl⟩
  case pha | php => exact ⟨_, 3, rfl, by decide, congrArg (· + 3) (push_cycles _ s)⟩
  case pla | plp => exact ⟨_, 4, rfl, by decide, congrArg (· + 4) (pull_cycles s)⟩
  case jsr w => exact ⟨_, 6, rfl, by decide, congrArg (· + 6) (pushWord_cycles _ s)⟩
  case rts => exact ⟨_, 6, rfl, by decide, congrArg (· + 6) (pullWord_cycles s)⟩
  case brk => exact ⟨_, 7, rfl, by decide, congrArg (· + 7) (trapEntry_cycles _ s)⟩
  case rti => exact ⟨_, 6, rfl, by decide, congrArg (· + 6) (trapReturn_cycles s)⟩
  all_goals exact ⟨_, 2, rfl, by decide, rfl⟩

/-- Settles O14: the fetch takes no cycles of its own and gives a well-formed instruction. -/
theorem cyclesOfAStep : Obligations.CyclesOfAStep := by
  intro s t h
  rcases step_next_cases h with ⟨hc, hcpu⟩ | ⟨hn, m, rfl⟩
  · refine ⟨fun _ => ?_, fun hn => absurd hc hn⟩
    obtain ⟨-, hexec, -⟩ := cpuStep_effect hcpu
    obtain ⟨u, n, hu, hcount, hcycles⟩ := exec_counted (fetchInstr (turnTaken s)).st (fetchInstr_wf (turnTaken s))
    obtain rfl : t = u := Host.Outcome.next.inj (hexec.symm.trans hu)
    rw [fetchInstr_cycles] at hcycles
    have hs : (turnTaken s).cycles = s.cycles := rfl
    omega
  · obtain ⟨-, hcycles, -⟩ := hostMove_frame m (turnTaken s)
    exact ⟨fun hc => absurd hc hn, fun _ => hcycles⟩

/-! ### Registers and flags -/

/-- Settles O15: one case per shared operation, by the register it writes and the fields its parts leave alone. -/
theorem registersChangeOnlyByTheirWriters : Obligations.RegistersChangeOnlyByTheirWriters := by
  intro i s
  cases i
  case lda o | ldx o | ldy o => exact ⟨_, rfl, by simp [writesA, writesX, writesY, load]⟩
  case adc o | sbc o => exact ⟨_, rfl, by simp [writesA, accumulate]⟩
  case and o | ora o | eor o => exact ⟨_, rfl, by simp [writesA, logical]⟩
  case cmp o | cpx o | cpy o => exact ⟨_, rfl, by simp [compareWith]⟩
  case bit m | sta m | stx m | sty m => exact ⟨_, rfl, by simp⟩
  case inc m | dec m => exact ⟨_, rfl, by simp [stepMemory]⟩
  case asl o | lsr o | rol o | ror o =>
    refine ⟨_, rfl, ?_⟩
    cases o <;> simp [writesA, shift, modifyOperand]
  case inx | iny | dex | dey => exact ⟨_, rfl, by simp [writesX, writesY, stepRegister]⟩
  case tax | tay | txa | tya | tsx => exact ⟨_, rfl, by simp [writesA, writesX, writesY, transfer]⟩
  case txs | pha | php | pla | plp => exact ⟨_, rfl, by simp [writesA, writesS]⟩
  case jmp t => exact ⟨_, rfl, by simp [writesPC]⟩
  case jsr w => exact ⟨_, rfl, by simp [writesPC, writesS]⟩
  case rts | brk | rti => exact ⟨_, rfl, by simp [writesPC, writesS]⟩
  case bcc off | bcs off | beq off | bne off | bmi off | bpl off | bvc off | bvs off =>
    exact ⟨_, rfl, by simp [writesPC]⟩
  case clc | sec | cli | sei | cld | sed | clv => exact ⟨_, rfl, by simp [flagOp]⟩
  case nop => exact ⟨_, rfl, by simp⟩
  case undefined op => exact ⟨_, exec_undefined op s, by simp⟩

/-- Settles O16: one case per shared operation, by what it leaves of the flags. -/
theorem flagsChangeOnlyByTheirWriters : Obligations.FlagsChangeOnlyByTheirWriters := by
  intro i s
  cases i
  case lda o | ldx o | ldy o => exact ⟨_, rfl, by simp [writesNZ, load, Flags.setNZ]⟩
  case adc o | sbc o => exact ⟨_, rfl, by simp [writesNZ, writesV, writesC, accumulate, Flags.setArith]⟩
  case and o | ora o | eor o => exact ⟨_, rfl, by simp [writesNZ, logical, Flags.setNZ]⟩
  case cmp o | cpx o | cpy o =>
    exact ⟨_, rfl, by simp [writesNZ, writesC, compareWith, Flags.setCompare, Flags.setNZ, Flags.setC]⟩
  case bit m => exact ⟨_, rfl, by simp [writesNZ, writesV, Flags.setBit]⟩
  case sta m | stx m | sty m => exact ⟨_, rfl, by simp⟩
  case inc m | dec m => exact ⟨_, rfl, by simp [writesNZ, stepMemory, Flags.setNZ]⟩
  case asl o | lsr o | rol o | ror o =>
    exact ⟨_, rfl, by simp [writesNZ, writesC, shift, Flags.setShift, Flags.setNZ, Flags.setC]⟩
  case inx | iny | dex | dey => exact ⟨_, rfl, by simp [writesNZ, stepRegister, Flags.setNZ]⟩
  case tax | tay | txa | tya | tsx => exact ⟨_, rfl, by simp [writesNZ, transfer, Flags.setNZ]⟩
  case txs | pha | php => exact ⟨_, rfl, by simp⟩
  case pla => exact ⟨_, rfl, by simp [writesNZ, Flags.setNZ]⟩
  case plp | rti => exact ⟨_, rfl, by simp [writesNZ, writesV, writesD, writesI, writesC]⟩
  case jmp o | jsr o => exact ⟨_, rfl, by simp⟩
  case rts | nop => exact ⟨_, rfl, by simp⟩
  case brk => exact ⟨_, rfl, by simp [writesI]⟩
  case bcc off | bcs off | beq off | bne off | bmi off | bpl off | bvc off | bvs off => exact ⟨_, rfl, by simp⟩
  case clc | sec | cli | sei | cld | sed | clv =>
    exact ⟨_, rfl, by simp [writesV, writesD, writesI, writesC, flagOp]⟩
  case undefined op => exact ⟨_, exec_undefined op s, by simp⟩

/-! ### Display-data writes -/

/-- The low seven bits of a byte as a number (R103). -/
theorem setWidth7_eq_ofNat (v : Byte) : v.setWidth 7 = BitVec.ofNat 7 (v.toNat % 128) := by
  apply BitVec.eq_of_toNat_eq
  simp

/-- A seven-bit code as a number of the branch table (R103). -/
theorem ofNat7_eq_iff {m n : Nat} (hm : m < 128) (hn : n < 128) : BitVec.ofNat 7 m = BitVec.ofNat 7 n ↔ m = n := by
  rw [← BitVec.toNat_inj, BitVec.toNat_ofNat, BitVec.toNat_ofNat, Nat.mod_eq_of_lt hm, Nat.mod_eq_of_lt hn]

theorem busyDelay_eq (s : State) : busyDelay s = if s.keyboardLatch = none then s.cfg.displayDelay else 0 := by
  cases h : s.keyboardLatch <;> simp [busyDelay, h]

/-- Settles O25: `emitted` is what `EmitAndWrap` does, `out` what the branch table does, one case per row. -/
theorem displayDataWriteFollowsTheTable : Obligations.DisplayDataWriteFollowsTheTable := by
  intro s v hs c emitted out
  have hemit (t : State) (ht : t.cfg = s.cfg) : emitAndWrap t c =
      { t with display := (emitted t.display t.column).1, column := (emitted t.display t.column).2 } := by
    rw [emitAndWrap_eq, ht]
    by_cases hw : s.cfg.windowWidth ≤ t.column + 1 <;> simp [emitted, hw]
  have hchar : displayChar s c = { s with display := out.1, column := out.2 } := by
    have hlt : v.toNat % 128 < 128 := Nat.mod_lt _ (by decide)
    have hcr : c = 0x0D#7 ↔ v.toNat % 128 = 0x0D := ofNat7_eq_iff hlt (by decide)
    have hus : c = 0x5F#7 ↔ v.toNat % 128 = 0x5F := ofNat7_eq_iff hlt (by decide)
    have hc : c.toNat = v.toNat % 128 := by simp [c]
    simp only [displayChar, hcr, hus, hc]
    by_cases h1 : v.toNat % 128 = 0x0D
    · simp [out, h1, advanceLine, State.callback]
    by_cases h2 : v.toNat % 128 = 0x5F
    · cases hp : s.cfg.underscorePolicy <;> simp [out, h2, hp, hemit, erasePreviousColumn, State.callback]
    by_cases h3 : 0x20 ≤ v.toNat % 128 ∧ v.toNat % 128 ≤ 0x5E
    · simp [out, h1, h2, h3, hemit]
    · simp [out, h1, h2, h3]
  simp only [writeByte, regionOf_dsp hs, displayWrite, show v.setWidth 7 = c from setWidth7_eq_ofNat v, hchar,
    busyDelay_eq, State.setReady]

end Sys2Proof.Proofs

/-! PROOFS. The memory's statements (20_memory.md): the memory map and its ports, reads and writes through the decode,
the fetch, the stack, and which bytes of memory an instruction changes. -/

namespace Sys2Proof.Proofs

open Sys2Proof.Machine Sys2Proof.Claims

/-! ### The decode in a legal configuration -/

section Decode

variable {cfg : Config} {a : Addr} (h : cfg.legal = true)
include h

/-- The decode names keyboard-data at its own address alone (R72). -/
theorem regionOf_kbd_iff : regionOf cfg a = .kbd ↔ a = cfg.portKbd := by
  refine ⟨fun hr => ?_, fun ha => ha ▸ regionOf_kbd h⟩
  unfold regionOf at hr
  split at hr
  · cases hr
  · split at hr
    · assumption
    · repeat' split at hr
      all_goals cases hr

theorem regionOf_basic (hlo : 0xE000 ≤ a.toNat) (hhi : a.toNat ≤ 0xEFFF) : regionOf cfg a = .basic := by
  obtain ⟨hram, hport⟩ := fixed_range h (.inl ⟨hlo, hhi⟩)
  rw [regionOf_fixed hram hport, if_pos ⟨hlo, hhi⟩]

theorem regionOf_rom (hlo : 0xFF00 ≤ a.toNat) (hhi : a.toNat ≤ 0xFFFB) : regionOf cfg a = .rom := by
  obtain ⟨hram, hport⟩ := fixed_range h (.inr hlo)
  rw [regionOf_fixed hram hport, if_neg (by omega), if_pos ⟨hlo, hhi⟩]

theorem regionOf_vectorLow : regionOf cfg 0xFFFC#16 = .vectorLow := by
  obtain ⟨hram, hport⟩ := fixed_range h (a := 0xFFFC#16) (.inr (by decide))
  exact (regionOf_fixed hram hport).trans (by decide)

theorem regionOf_vectorHigh : regionOf cfg 0xFFFD#16 = .vectorHigh := by
  obtain ⟨hram, hport⟩ := fixed_range h (a := 0xFFFD#16) (.inr (by decide))
  exact (regionOf_fixed hram hport).trans (by decide)

end Decode

/-- What no row of the memory map takes is unmapped, in every configuration (R75). -/
theorem regionOf_unmapped {cfg : Config} {a : Addr} (hram : cfg.ramSize ≤ a.toNat) (hport : a ∉ cfg.ports)
    (hbasic : ¬ (0xE000 ≤ a.toNat ∧ a.toNat ≤ 0xEFFF)) (hrom : ¬ (0xFF00 ≤ a.toNat ∧ a.toNat ≤ 0xFFFD)) :
    regionOf cfg a = .unmapped := by
  have hlow : a ≠ 0xFFFC#16 := by rintro rfl; exact hrom (by decide)
  have hhigh : a ≠ 0xFFFD#16 := by rintro rfl; exact hrom (by decide)
  rw [regionOf_fixed hram hport, if_neg hbasic, if_neg (by omega), if_neg hlow, if_neg hhigh]

/-! ### Port accesses in a legal configuration -/

section Ports

variable {s : State} (h : s.cfg.legal = true)
include h

theorem peek_kbd : peek s s.cfg.portKbd = kbdByte s := by simp only [peek, regionOf_kbd h]

theorem peek_kbdCr : peek s s.cfg.portKbdCr = kbdCrByte s := by simp only [peek, regionOf_kbdCr h]

theorem peek_dsp : peek s s.cfg.portDsp = 0x00#8 := by simp only [peek, regionOf_dsp h]

theorem peek_dspCr : peek s s.cfg.portDspCr = dspCrByte s := by simp only [peek, regionOf_dspCr h]

theorem touch_kbd : touch s s.cfg.portKbd = s.setLatch none := by simp only [touch, regionOf_kbd h]

theorem touch_kbdCr : touch s s.cfg.portKbdCr = s := touch_of_ne (by rw [regionOf_kbdCr h]; decide)

theorem touch_dsp : touch s s.cfg.portDsp = s := touch_of_ne (by rw [regionOf_dsp h]; decide)

theorem touch_dspCr : touch s s.cfg.portDspCr = s := touch_of_ne (by rw [regionOf_dspCr h]; decide)

theorem writeByte_kbd (v : Byte) : writeByte s s.cfg.portKbd v = s := by simp only [writeByte, regionOf_kbd h]

theorem writeByte_kbdCr (v : Byte) : writeByte s s.cfg.portKbdCr v = s := by simp only [writeByte, regionOf_kbdCr h]

theorem writeByte_dspCr (v : Byte) : writeByte s s.cfg.portDspCr v = s := by simp only [writeByte, regionOf_dspCr h]

theorem writeByte_dsp (v : Byte) : writeByte s s.cfg.portDsp v = displayWrite s v := by
  simp only [writeByte, regionOf_dsp h]

end Ports

theorem kbdByte_of_some {s : State} {c : Byte} (h : s.keyboardLatch = some c) : kbdByte s = 0x80#8 ||| c := by
  simp only [kbdByte, h]

theorem kbdByte_of_none {s : State} (h : s.keyboardLatch = none) : kbdByte s = 0x00#8 := by
  simp only [kbdByte, h]

/-- With no key latched a read changes nothing, at any address (R101). -/
theorem touch_of_latch_none {s : State} (h : s.keyboardLatch = none) (a : Addr) : touch s a = s := by
  rw [touch_eq, ← h, ite_self]

theorem kbdCrByte_eq (s : State) : kbdCrByte s = if s.keyboardLatch = none then 0x00#8 else 0x80#8 := by
  cases hl : s.keyboardLatch <;> simp [kbdCrByte, hl]

theorem dspCrByte_of_none {s : State} (h : s.nextReady = none) : dspCrByte s = 0x00#8 := by
  simp only [dspCrByte, h]

theorem dspCrByte_of_some {s : State} {r : Nat} (h : s.nextReady = some r) :
    dspCrByte s = if s.clock > r then 0x00#8 else 0x80#8 := by
  simp only [dspCrByte, h, gt_iff_lt]

/-- A display-data write changes no diagnostic event (R107). -/
@[simp] theorem displayWrite_diag (s : State) (v : Byte) : (displayWrite s v).diag = s.diag := by
  simp [displayWrite]

/-- The timestamp a display-data write sets, whatever the byte (R104). -/
theorem displayWrite_nextReady (s : State) (v : Byte) :
    (displayWrite s v).nextReady = some (s.clock + if s.keyboardLatch = none then s.cfg.displayDelay else 0) := by
  rw [displayWrite, State.setReady_nextReady, busyDelay_eq]

/-! ### Reads -/

/-- Inside an image the byte past its end is never used (R450, log 16). -/
theorem getElem?_eq_some_getD {l : List Byte} {k : Nat} (h : k < l.length) : l[k]? = some (l.getD k 0x00#8) := by
  rw [List.getElem?_eq_getElem h, List.getD_eq_getElem _ _ h]

/-- Settles O19: the decode's answer for each row of the map, and what a read gives there. -/
theorem readFollowsTheMemoryMap : Obligations.ReadFollowsTheMemoryMap := by
  intro s a hs
  obtain ⟨-, hromLength, hbasicLength, -⟩ := legal_iff.mp hs
  refine ⟨peek_ram, ?kbd, ?kbdCr, ?dsp, ?dspCr, ?basic, ?rom, ?vectorLow, ?vectorHigh, ?unmapped⟩
  case kbd =>
    rintro rfl
    rw [peek_kbd hs]
    cases hl : s.keyboardLatch with
    | none => exact kbdByte_of_none hl
    | some c => exact kbdByte_of_some hl
  case kbdCr =>
    rintro rfl
    rw [peek_kbdCr hs, kbdCrByte_eq]
  case dsp =>
    rintro rfl
    exact peek_dsp hs
  case dspCr =>
    rintro rfl
    rw [peek_dspCr hs]
    cases hr : s.nextReady with
    | none => exact dspCrByte_of_none hr
    | some r => exact dspCrByte_of_some hr
  case basic =>
    intro hlo hhi
    simp only [peek, regionOf_basic hs hlo hhi]
    exact getElem?_eq_some_getD (by omega)
  case rom =>
    intro hlo hhi
    simp only [peek, regionOf_rom hs hlo hhi]
    exact getElem?_eq_some_getD (by omega)
  case vectorLow =>
    rintro rfl
    simp only [peek, regionOf_vectorLow hs, lowByte_toNat]
  case vectorHigh =>
    rintro rfl
    simp only [peek, regionOf_vectorHigh hs, highByte_toNat]
  case unmapped =>
    intro hram hport hbasic hrom
    simp only [peek, regionOf_unmapped hram hport hbasic hrom]

/-- Settles O20: the one region whose reads have an effect is the keyboard-data port. -/
theorem onlyKeyboardDataReadsHaveEffects : Obligations.OnlyKeyboardDataReadsHaveEffects := by
  intro s a hs
  by_cases ha : a = s.cfg.portKbd
  · rw [if_pos ha, ha, touch_kbd hs]
    rfl
  · rw [if_neg ha]
    exact touch_of_ne fun hr => ha ((regionOf_kbd_iff hs).mp hr)

/-- Settles O23: with a key latched, with none, and the keyboard-control read. -/
theorem keyboardPortsFollowTheLatch : Obligations.KeyboardPortsFollowTheLatch := by
  intro s hs
  refine ⟨fun c hc => ⟨?_, ?_, ?_, ?_⟩, fun hn => ⟨?_, ?_, ?_⟩, touch_kbdCr hs⟩
  · rw [peek_kbd hs, kbdByte_of_some hc]
  · simp [peek_kbdCr hs, kbdCrByte_eq, hc]
  · exact touch_kbd hs
  · rw [touch_kbd hs]
    exact (peek_kbd (s := s.setLatch none) hs).trans (kbdByte_of_none rfl)
  · rw [peek_kbd hs, kbdByte_of_none hn]
  · simp [peek_kbdCr hs, kbdCrByte_eq, hn]
  · exact touch_of_latch_none hn _

/-- Settles O28: `hiLo` of the two bytes as a number. -/
theorem wordReadsAreLittleEndian : Obligations.WordReadsAreLittleEndian := by
  intro s a b
  have hb : a + 1#16 = b := by
    apply BitVec.eq_of_toNat_eq
    simp [b, BitVec.toNat_add]
  rw [← hb]
  exact ⟨hiLo_toNat _ _, rfl⟩

/-! ### Writes -/

/-- Settles O21: the two vector bytes are outside RAM and the ports as well. -/
theorem rejectedWritesAreOnlyReported : Obligations.RejectedWritesAreOnlyReported := by
  intro s a v hs ha
  obtain ⟨hram, hport⟩ : s.cfg.ramSize ≤ a.toNat ∧ a ∉ s.cfg.ports := by
    rcases ha with ha | rfl | rfl
    · exact ha
    · exact fixed_range hs (.inr (by decide))
    · exact fixed_range hs (.inr (by decide))
  exact writeByte_rejected v hram hport

/-- A write to RAM changes what no other address reads, the ports among them (R82). -/
theorem peek_writeByte_ram_of_ne {s : State} {a b : Addr} (v : Byte) (hw : Memory.wf s.ram = true)
    (ha : a.toNat < s.cfg.ramSize) (hb : b ≠ a) : peek (writeByte s a v) b = peek s b := by
  by_cases hr : b.toNat < s.cfg.ramSize
  · exact peek_writeByte_of_ne v hw hb (.inl hr)
  · have hregion : regionOf s.cfg b ≠ .ram := fun h => hr (regionOf_ram_iff.mp h)
    rw [writeByte_of_ram v ha]
    unfold peek
    rw [State.setRam_cfg]
    split
    · contradiction
    all_goals rfl

/-- Settles O22: a RAM address by the RAM list's read after write, any other by the report that is all the write does. -/
theorem ramReadsBackWhatWasWritten : Obligations.RamReadsBackWhatWasWritten := by
  intro s a v hw
  refine ⟨fun ha => ⟨peek_writeByte_same v hw ha, fun b => peek_writeByte_ram_of_ne v hw ha⟩, fun hram hport => ?_⟩
  rw [writeByte_rejected v hram hport]
  exact peek_congr a rfl rfl rfl rfl rfl

/-- Settles O27: the ports' accesses one by one; the only one that changes the display changes no event. -/
theorem inertPortAccesses : Obligations.InertPortAccesses := by
  intro s v hs
  refine ⟨writeByte_kbd hs v, writeByte_kbdCr hs v, writeByte_dspCr hs v, peek_dsp hs, touch_dsp hs, fun a ha => ?_⟩
  refine ⟨touch_diag s a, ?_⟩
  simp only [Config.ports, List.mem_cons, List.not_mem_nil, or_false] at ha
  rcases ha with rfl | rfl | rfl | rfl
  · rw [writeByte_kbd hs]
  · rw [writeByte_kbdCr hs]
  · rw [writeByte_dsp hs, displayWrite_diag]
  · rw [writeByte_dspCr hs]

/-- Settles O26: a display-control read by the timestamp, and the timestamp by the write before it. -/
theorem displayIsBusyUntilTheDelayHasPassed : Obligations.DisplayIsBusyUntilTheDelayHasPassed := by
  intro s v now hs _ t delay
  have hready : t.nextReady = some (s.clock + delay) :=
    (congrArg State.nextReady (writeByte_dsp hs v)).trans (displayWrite_nextReady s v)
  refine ⟨fun hn => ?_, fun r hr => ?_, touch_dspCr hs, hready, fun a ha => ?_, ?_⟩
  · rw [peek_dspCr hs, dspCrByte_of_none hn]
  · rw [peek_dspCr hs, dspCrByte_of_some hr]
  · simp only [List.mem_cons, List.not_mem_nil, or_false] at ha
    rcases ha with rfl | rfl | rfl
    · rw [writeByte_kbd hs]
    · rw [writeByte_kbdCr hs]
    · rw [writeByte_dspCr hs]
  · have hcfg : t.cfg = s.cfg := writeByte_cfg s s.cfg.portDsp v
    have hpeek := peek_dspCr (s := { t with clock := now }) (by rw [hcfg]; exact hs)
    rw [← hcfg]
    exact hpeek.trans (dspCrByte_of_some hready)

/-! ### The stack -/

/-- A read does not see S. -/
theorem peek_setSP (s : State) (sp : Byte) (a : Addr) : peek (s.setSP sp) a = peek s a :=
  peek_congr a rfl rfl rfl rfl rfl

/-- A read's side effect does not depend on S. -/
theorem touch_setSP (s : State) (sp : Byte) (a : Addr) : touch (s.setSP sp) a = (touch s a).setSP sp := by
  rw [touch_eq, touch_eq]
  rfl

/-- A pull is one raising of S and one read. -/
theorem pull_eq (s : State) :
    pull s =
      { val := peek s (stackAddr (s.sp + 1#8))
        st := (touch s (stackAddr (s.sp + 1#8))).setSP (s.sp + 1#8) } := by
  rw [pull, readByte, State.setSP_sp, peek_setSP, touch_setSP]

/-- Settles O30: one write and one read at the slot of R87. -/
theorem pushAndPull : Obligations.PushAndPull := by
  intro s v
  have hdown : s.sp - 1#8 = BitVec.ofNat 8 (s.sp.toNat + 255) := by bv_omega
  have hup : s.sp + 1#8 = BitVec.ofNat 8 (s.sp.toNat + 1) := by bv_omega
  refine ⟨?_, ?_⟩
  · rw [push_eq, stackAddr_eq_slot, hdown]
    rfl
  · intro up
    rw [pull_eq, stackAddr_eq_slot, hup]
    rfl

/-! ### The fetch -/

/-- A fetch at an address that is no port, wherever PC was before, reads the byte of memory there. -/
theorem fetchByte_setPC_noPort {s : State} {a : Addr} (h : NoPort s.cfg a) :
    fetchByte (s.setPC a) = { val := peek s a, st := s.setPC (a + 1#16) } := by
  rw [fetchByte_noPort (s := s.setPC a) h]
  exact congrArg (Got.mk · _) (peek_congr a rfl rfl rfl rfl rfl)

/-- Settles O6: three fetches at addresses that are no ports, one after the other. -/
theorem fetchReadsMemoryAtPc : Obligations.FetchReadsMemoryAtPc := by
  intro s h0 h1 h2
  have f0 : fetchByte s = { val := peek s s.pc, st := s.setPC (s.pc + 1#16) } := fetchByte_noPort h0
  have f1 : fetchByte (s.setPC (s.pc + 1#16)) =
      { val := peek s (s.pc + 1#16), st := s.setPC (s.pc + 2#16) } := by
    rw [fetchByte_setPC_noPort h1, BitVec.add_assoc]
    rfl
  have f2 : fetchByte (s.setPC (s.pc + 2#16)) =
      { val := peek s (s.pc + 2#16), st := s.setPC (s.pc + 3#16) } := by
    rw [fetchByte_setPC_noPort h2, BitVec.add_assoc]
    rfl
  refine ⟨by simp only [stream, f0, f1, f2], fun n hlo hhi => ?_⟩
  obtain rfl | rfl | rfl : n = 1 ∨ n = 2 ∨ n = 3 := by omega
  · simp only [afterFetch, f0]; rfl
  · simp only [afterFetch, f0, f1]; rfl
  · simp only [afterFetch, f0, f1, f2]; rfl

/-! ### Frames over instructions and steps -/

/-- RAM stays canonical, and every byte of it at an address not written to is as before (R93, R186). -/
theorem Access.ram {W : List Addr} {s t : State} (h : Access W s t) (hw : Memory.wf s.ram = true) :
    Memory.wf t.ram = true ∧ ∀ a ∉ W, Memory.get t.ram a.toNat = Memory.get s.ram a.toNat := by
  induction h with
  | refl => exact ⟨hw, fun _ _ => rfl⟩
  | regs _ _ _ _ _ _ _ _ ih => exact ih
  | reads _ hr ih => obtain ⟨l, -, rfl⟩ := hr; exact ih
  | @write t _ b v hb ih =>
    obtain ⟨hwf, hget⟩ := ih
    refine ⟨writeByte_wf b v hwf, fun a ha => ?_⟩
    have hne : a ≠ b := fun he => ha (he ▸ hb)
    exact (writeByte_get_of_ne v hwf hne).trans (hget a ha)

/-- Settles O17: an undefined opcode touches no memory, every other instruction writes to its stored addresses alone. -/
theorem memoryChangesOnlyWhereStored : Obligations.MemoryChangesOnlyWhereStored := by
  intro i s hw
  by_cases hi : ∃ op, i = .undefined op
  · obtain ⟨op, rfl⟩ := hi
    exact ⟨_, exec_undefined op s, fun a _ _ => peek_congr a rfl rfl rfl rfl rfl⟩
  · obtain ⟨t, ht, hacc⟩ := exec_access i s fun op h => hi ⟨op, h⟩
    obtain ⟨hcfg, -, -⟩ := hacc.fixed
    obtain ⟨-, hget⟩ := hacc.ram hw
    exact ⟨t, ht, fun a hp ha => peek_noPort hp hcfg (hget a ha)⟩

/-- A move of the host or the clock leaves the latch, clears it by a read, or is `set_key` (R108, R421). -/
theorem hostMove_keyboardLatch (m : HostMove) (s : State) :
    (hostMove m s).keyboardLatch = s.keyboardLatch ∨ (hostMove m s).keyboardLatch = none ∨
      ∃ c, m = .setKey c ∧ (hostMove m s).keyboardLatch = some c := by
  cases m with
  | reset => exact (readWord_onlyReads 0xFFFC#16 s).effect.latch.imp_right .inl
  | setKey c => exact .inr (.inr ⟨c, rfl, rfl⟩)
  | read a => exact (touch_keyboardLatch s a).imp_right .inl
  | write a v => exact .inl (writeByte_keyboardLatch s a v)
  | bulkLoad address bytes =>
    refine .inl ?_
    simp only [hostMove, bulkLoadMove]
    split <;> rfl
  | bulkSave first last =>
    refine .inl ?_
    simp only [hostMove, bulkSaveMove]
    split <;> rfl
  | advanceClock ticks => exact .inl rfl

/-- Settles O24: a CPU step never sets the latch, and of the host's moves only `set_key` does. -/
theorem keyboardLatchIsSetOnlyByTheHost : Obligations.KeyboardLatchIsSetOnlyByTheHost := by
  intro s t h
  rcases step_cases s with ⟨hc, -⟩ | ⟨m, rest, ha, hs⟩
  · obtain ⟨-, -, he⟩ := cpuStep_effect (cpuStep_of_cpuTurn hc h)
    exact he.latch.imp_right .inl
  · obtain rfl : hostMove m (turnTaken s) = t := Host.Outcome.next.inj (hs.symm.trans h)
    rcases hostMove_keyboardLatch m (turnTaken s) with hl | hl | ⟨c, rfl, hl⟩
    · exact .inl hl
    · exact .inr (.inl hl)
    · exact .inr (.inr ⟨c, rest, ha, hl⟩)

end Sys2Proof.Proofs

/-! PROOFS. The encoding's statements (30_encoding.md): the decoder undoes the encoder and the encoder the decoder, what
the decoder rejects, and the step as the meaning of the decoded bytes. -/

namespace Sys2Proof.Proofs

open Sys2Proof.Machine Sys2Proof.Claims

/-! ### The decoder, format by format -/

/-- A format of R140 gives an instruction from the bytes after the opcode, the low byte of a word first (R141). -/
inductive Gives : Shape → List Byte → Instr → Prop where
  | one (i : Instr) : Gives (.one i) [] i
  | two (f : Byte → Instr) (b : Byte) : Gives (.two f) [b] (f b)
  | three (f : Addr → Instr) (w : Addr) : Gives (.three f) [lowByte w, highByte w] (f w)

/-- The decoder answers what the opcode's format gives, and leaves the bytes after it. -/
theorem decode_of_gives {op : Byte} {sh : Shape} {bs : List Byte} {i : Instr} (hs : shapeOf op = some sh)
    (hg : Gives sh bs i) (rest : List Byte) : decode (op :: bs ++ rest) = .ok (i, rest) := by
  cases hg with
  | one i => exact decode_of_one hs rest
  | two f b => exact decode_of_two hs rest
  | three f w =>
    rw [← congrArg f (hiLo_halves w)]
    exact decode_of_three hs rest

/-- Any two bytes after an opcode of the map hold the operand of its format. -/
theorem exists_gives (sh : Shape) (b1 b2 : Byte) (rest : List Byte) :
    ∃ bs i rest', Gives sh bs i ∧ bs ++ rest' = b1 :: b2 :: rest := by
  cases sh with
  | one i => exact ⟨[], i, _, .one i, rfl⟩
  | two f => exact ⟨[b1], f b1, _, .two f b1, rfl⟩
  | three f => exact ⟨_, f (hiLo b2 b1), rest, .three f _, by simp⟩

theorem Gives.wf {sh : Shape} {bs : List Byte} {i : Instr} (hg : Gives sh bs i) (hs : ShapeWf sh) : i.wf = true := by
  cases hg with
  | one i => exact hs
  | two f b => exact hs b
  | three f w => exact hs w

/-! ### The two copies of the opcode table -/

/-- The table by mnemonic encodes the instructions of a row of the opcode map with the row's own opcode. -/
def RowEncodes (op : Byte) : Shape → Prop
  | .one i => encode i = some [op]
  | .two f => ∀ b, encode (f b) = some [op, b]
  | .three f => ∀ w, encode (f w) = some [op, lowByte w, highByte w]

/-- The opcode map (R145) agrees with the table by mnemonic (R148), row by row. -/
theorem opcodeMap_encodes : ∀ row ∈ opcodeMap, RowEncodes row.1 row.2 := by
  simp only [opcodeMap, opcodeRow0, opcodeRow1, opcodeRow2, opcodeRow3, opcodeRow4, opcodeRow5, opcodeRow6,
    opcodeRow7, opcodeRow8, opcodeRow9, opcodeRowA, opcodeRowB, opcodeRowC, opcodeRowD, opcodeRowE, opcodeRowF,
    List.forall_mem_append, List.forall_mem_cons, List.not_mem_nil, false_imp_iff, implies_true, and_true, RowEncodes]
  and_intros
  all_goals intros; rfl

/-- What an opcode's format gives is encoded as that opcode and the bytes it was given from. -/
theorem encode_of_gives {op : Byte} {sh : Shape} {bs : List Byte} {i : Instr} (hs : shapeOf op = some sh)
    (hg : Gives sh bs i) : encode i = some (op :: bs) := by
  have hrow : RowEncodes op sh := opcodeMap_encodes _ (mem_opcodeMap hs)
  cases hg with
  | one i => exact hrow
  | two f b => exact hrow b
  | three f w => exact hrow w

/-- The table by mnemonic (R148) agrees with the opcode map (R145), form by form: every form a documented mnemonic has
stands in the map under the opcode the table gives it (`cases h` drops the forms it does not have). -/
theorem gives_of_wf {i : Instr} (h : i.wf = true) (hu : ∀ op, i ≠ .undefined op) :
    ∃ op sh, i.opcode = some op ∧ shapeOf op = some sh ∧ Gives sh i.operandBytes i := by
  cases i
  case lda o | ldx o | ldy o | adc o | sbc o | cmp o | cpx o | cpy o | and o | ora o | eor o =>
    rcases o with b | m
    · exact ⟨_, _, rfl, rfl, .two _ b⟩
    · cases m <;> cases h <;> exact ⟨_, _, rfl, rfl, by constructor⟩
  case sta m | stx m | sty m | inc m | dec m | bit m =>
    cases m <;> cases h <;> exact ⟨_, _, rfl, rfl, by constructor⟩
  case asl o | lsr o | rol o | ror o =>
    rcases o with _ | m
    · exact ⟨_, _, rfl, rfl, .one _⟩
    · cases m <;> cases h <;> exact ⟨_, _, rfl, rfl, by constructor⟩
  case jmp t => cases t <;> exact ⟨_, _, rfl, rfl, .three _ _⟩
  case jsr w => exact ⟨_, _, rfl, rfl, .three _ w⟩
  case bcc off | bcs off | beq off | bne off | bmi off | bpl off | bvc off | bvs off =>
    exact ⟨_, _, rfl, rfl, .two _ off⟩
  case undefined op => exact absurd rfl (hu op)
  all_goals exact ⟨_, _, rfl, rfl, .one _⟩

theorem encode_undefined {op : Byte} (h : op ∈ undefinedOpcodes) : encode (.undefined op) = some [op] := by
  simp [encode, Instr.opcode, Instr.operandBytes, h]

theorem undefined_wf_iff {op : Byte} : (Instr.undefined op).wf = true ↔ op ∈ undefinedOpcodes :=
  List.contains_iff_mem

/-- Settles O1: an undefined opcode is one byte without a row, any other instruction is what its opcode's row gives. -/
theorem decodeEncodeAgree : Obligations.DecodeEncodeAgree := by
  intro i rest h
  by_cases hi : ∃ op, i = .undefined op
  · obtain ⟨op, rfl⟩ := hi
    have hm : op ∈ undefinedOpcodes := undefined_wf_iff.mp h
    exact ⟨[op], encode_undefined hm, decode_of_undefined (shapeOf_undefined hm) rest⟩
  · obtain ⟨op, sh, hop, hs, hg⟩ := gives_of_wf h fun op he => hi ⟨op, he⟩
    exact ⟨op :: i.operandBytes, by simp [encode, hop], decode_of_gives hs hg rest⟩

theorem undefinedOpcodes_nodup : undefinedOpcodes.Nodup := by
  have h : undefinedBytes.SortedLT := by decide +kernel
  have hn : (undefinedOpcodes.map BitVec.toNat).Nodup := undefinedOpcodes_bytes ▸ h.nodup
  exact hn.of_map

theorem undefinedOpcodes_length : undefinedOpcodes.length = 105 := by
  rw [← List.length_map (f := BitVec.toNat), undefinedOpcodes_bytes]
  rfl

/-- Settles O2: a byte without a row is one of R146's, and a byte with a row gives an instruction of R145's. -/
theorem everyByteValueDecodes : Obligations.EveryByteValueDecodes := by
  refine ⟨undefinedOpcodes_nodup, undefinedOpcodes_length, fun op b1 b2 rest => ?_⟩
  cases hs : shapeOf op with
  | none =>
    have hm : op ∈ undefinedOpcodes := (shapeOf_eq_none_iff_undefined op).mp hs
    exact ⟨.undefined op, b1 :: b2 :: rest, [op], decode_of_undefined hs _, undefined_wf_iff.mpr hm,
      encode_undefined hm, rfl, iff_of_true rfl hm⟩
  | some sh =>
    obtain ⟨bs, i, rest', hg, hbytes⟩ := exists_gives sh b1 b2 rest
    have hm : op ∉ undefinedOpcodes := fun hm => by simp [shapeOf_undefined hm] at hs
    have hwf : i.wf = true := hg.wf (shapeOf_wf hs)
    have hi : i ≠ .undefined op := fun he => hm (undefined_wf_iff.mp (he ▸ hwf))
    refine ⟨i, rest', op :: bs, ?_, hwf, encode_of_gives hs hg, congrArg (op :: ·) hbytes, iff_of_false hi hm⟩
    rw [← hbytes]
    exact decode_of_gives hs hg rest'

/-! ### What the decoder rejects -/

/-- After an opcode the decoder rejects exactly too few operand bytes (R140, R142). -/
theorem decode_cons_eq_error_iff (op : Byte) (rest : List Byte) (e : DecodeError) :
    decode (op :: rest) = .error e ↔ rest.length + 1 < instrLength op ∧ e = .truncated op := by
  cases hs : shapeOf op with
  | none => simp [decode, instrLength, hs]
  | some sh =>
    cases sh with
    | one i => simp [decode, instrLength, hs]
    | two f => rcases rest with _ | ⟨b1, rest⟩ <;> simp [decode, instrLength, hs, eq_comm]
    | three f => rcases rest with _ | ⟨b1, _ | ⟨b2, rest⟩⟩ <;> simp [decode, instrLength, hs, eq_comm]

/-- Settles O3: the empty list, and a list with an opcode. -/
theorem decodeRejectsOnlyTruncation : Obligations.DecodeRejectsOnlyTruncation := by
  intro bs e
  cases bs with
  | nil => simp [decode, eq_comm]
  | cons op rest => simp [decode_cons_eq_error_iff]

/-- Settles O4: the decoder evaluated on each of the thirteen words. -/
theorem sampleWordsDecode : Obligations.SampleWordsDecode := by
  unfold Obligations.SampleWordsDecode
  and_intros <;> rfl

/-! ### The step -/

/-- The fetch gives the instruction its bytes decode to, and has fetched exactly that instruction's bytes (R142). -/
theorem fetchInstr_of_decode_stream {s : State} {i : Instr} {rest : List Byte}
    (h : decode (stream s) = .ok (i, rest)) : fetchInstr s = { val := i, st := afterFetch (3 - rest.length) s } := by
  unfold stream at h
  cases hs : shapeOf (fetchByte s).val with
  | none =>
    rw [decode_of_undefined hs] at h
    cases h
    exact fetchInstr_undefined hs
  | some sh =>
    cases sh with
    | one i =>
      rw [decode_of_one hs] at h
      cases h
      exact fetchInstr_one hs
    | two f =>
      rw [decode_of_two hs] at h
      cases h
      exact fetchInstr_two hs
    | three f =>
      rw [decode_of_three hs] at h
      cases h
      exact fetchInstr_three hs

/-- At the CPU's turn a step is a CPU step (R20). -/
theorem step_of_cpuTurn {s : State} (h : CpuTurn s) : step s = cpuStep (turnTaken s) := by
  rcases step_cases s with ⟨-, hs⟩ | ⟨m, rest, ha, -⟩
  · exact hs
  · simp [CpuTurn, ha] at h

/-- Settles O5: the CPU's turn, a running machine, and the fetch of the decoded bytes. -/
theorem stepRunsTheDecodedInstruction : Obligations.StepRunsTheDecodedInstruction := by
  intro s i rest hrun hturn hdecode
  have hrun' : Running (turnTaken s) := ⟨hrun.booted, hrun.healthy⟩
  rw [step_of_cpuTurn hturn, cpuStep_of_running hrun', fetchInstr_of_decode_stream hdecode]

end Sys2Proof.Proofs

/-! PROOFS. The addressing modes' statements (40_addressing.md): the direct modes compute their address without an
access, the pointer modes read their pointer from page 0. -/

namespace Sys2Proof.Proofs

open Sys2Proof.Machine Sys2Proof.Claims

/-! ### Index sums as numbers -/

theorem zext16_eq_ofNat (b : Byte) : zext16 b = BitVec.ofNat 16 b.toNat := (BitVec.ofNat_toNat 16 b).symm

/-- A zero-page sum wraps inside page 0 (R174, R175). -/
theorem zext16_add_toNat (b i : Byte) : (zext16 (b + i)).toNat = (b.toNat + i.toNat) % 256 := by
  rw [zext16_toNat, BitVec.toNat_add]

theorem zext16_add_eq_ofNat (b i : Byte) : zext16 (b + i) = BitVec.ofNat 16 ((b.toNat + i.toNat) % 256) := by
  rw [zext16_eq_ofNat, BitVec.toNat_add]

/-- The effective address of an indexed mode (R178, R179). -/
theorem indexed_ea_toNat (base : Addr) (i : Byte) (s : State) :
    (indexed base i s).ea.toNat = (base.toNat + i.toNat) % 65536 := by
  simp only [indexed, BitVec.toNat_add, zext16_toNat]

theorem indexed_ea (base : Addr) (i : Byte) (s : State) :
    (indexed base i s).ea = BitVec.ofNat 16 (base.toNat + i.toNat) :=
  BitVec.eq_of_toNat_eq ((indexed_ea_toNat base i s).trans (BitVec.toNat_ofNat _ 16).symm)

/-- The page-crossing test (R182): other numbers of whole pages below. -/
theorem indexed_crossed (base : Addr) (i : Byte) (s : State) :
    (indexed base i s).crossed = decide ((indexed base i s).ea.toNat / 256 ≠ base.toNat / 256) :=
  decide_eq_decide.mpr (not_congr (page_eq_iff _ _))

theorem indexed_crossed_iff (base : Addr) (i : Byte) (s : State) :
    (indexed base i s).crossed = true ↔ (indexed base i s).ea.toNat / 256 ≠ base.toNat / 256 := by
  rw [indexed_crossed, decide_eq_true_iff]

/-- An indexed address as numbers. -/
theorem indexed_eq (base : Addr) (i : Byte) (s : State) :
    let ea : Addr := BitVec.ofNat 16 (base.toNat + i.toNat)
    indexed base i s = { ea := ea, crossed := decide (ea.toNat / 256 ≠ base.toNat / 256), st := s } := by
  intro ea
  have hea : (indexed base i s).ea = ea := indexed_ea base i s
  rw [← hea, ← indexed_crossed]
  rfl

/-- Settles O37: the sums as numbers, mode by mode; only the absolute indexed modes can cross a page. -/
theorem directModesComputeTheirAddress : Obligations.DirectModesComputeTheirAddress := by
  intro s b w
  refine ⟨zext16_toNat b, zext16_add_toNat b s.x, zext16_add_toNat b s.y, rfl, indexed_ea_toNat w s.x s,
    indexed_ea_toNat w s.y s, fun m hm => ?unindexed, fun m hm => ?indexed⟩
  case unindexed =>
    fin_cases hm <;> exact ⟨rfl, rfl⟩
  case indexed =>
    fin_cases hm
    · exact ⟨rfl, indexed_crossed_iff w s.x s⟩
    · exact ⟨rfl, indexed_crossed_iff w s.y s⟩

/-! ### Pointers in page 0 -/

/-- The two reads of a zero-page pointer, low byte first, both addresses wrapping inside page 0 (R180, R181). -/
theorem zeroPagePointer_eq (p : Byte) (s : State) :
    let z : Addr := BitVec.ofNat 16 p.toNat
    let z' : Addr := BitVec.ofNat 16 ((p.toNat + 1) % 256)
    zeroPagePointer p s = { val := word (peek (touch s z) z') (peek s z), st := touch (touch s z) z' } := by
  intro z z'
  have hz : zext16 p = z := zext16_eq_ofNat p
  have hz' : zext16 (p + 1#8) = z' := zext16_add_eq_ofNat p 1#8
  rw [zeroPagePointer, hz, hz', readPointer, hiLo_eq_ofNat]
  rfl

/-- `(zp,X)` takes its address from the pointer at operand + X (R180). -/
theorem resolve_indX (b : Byte) (s : State) :
    resolve (.indX b) s =
      { ea := (zeroPagePointer (b + s.x) s).val, crossed := false, st := (zeroPagePointer (b + s.x) s).st } := rfl

/-- `(zp),Y` indexes the pointer at the operand; the pointer's reads leave Y alone (R181). -/
theorem resolve_indY (b : Byte) (s : State) :
    resolve (.indY b) s = indexed (zeroPagePointer b s).val s.y (zeroPagePointer b s).st := by
  have hy : (zeroPagePointer b s).st.y = s.y := by rw [zeroPagePointer_eq, touch_y, touch_y]
  rw [← hy]
  rfl

/-- Settles O38: the pointer's two reads, for `(zp,X)` at the wrapped sum, for `(zp),Y` before the index is added. -/
theorem pointerModesReadTheirPointer : Obligations.PointerModesReadTheirPointer := by
  refine fun s b => ⟨?indX, ?indY⟩
  case indX =>
    intro z z'
    have hz' : ((b + s.x).toNat + 1) % 256 = (b.toNat + s.x.toNat + 1) % 256 := by
      rw [BitVec.toNat_add, Nat.mod_add_mod]
    rw [resolve_indX, zeroPagePointer_eq, hz', BitVec.toNat_add]
  case indY =>
    intro z z' base ea
    rw [resolve_indY, zeroPagePointer_eq, indexed_eq]

end Sys2Proof.Proofs

/-! PROOFS. The loads' and stores' statements (41_load_store.md), from what makes any read-class and any write-class
rule hold: the encoding form by form, the line's cycles, and the effect on the state after the operand is read. -/

namespace Sys2Proof.Proofs

open Sys2Proof.Machine Sys2Proof.Claims

/-! ### Operands of the read class in the statements' words -/

theorem readOperand_value (o : ReadOperand) (s : State) : (readOperand o s).value = operand o s := by
  cases o <;> rfl

theorem readOperand_st (o : ReadOperand) (s : State) : (readOperand o s).st = afterRead o s := by
  cases o <;> rfl

@[simp] theorem afterRead_cycles (o : ReadOperand) (s : State) : (afterRead o s).cycles = s.cycles := by
  rw [← readOperand_st, readOperand_cycles]

/-- Crossing a page costs one cycle in the modes that can cross one; the other modes never do (R182). -/
theorem readCycles_resolve (m : MemOperand) (s : State) :
    readCycles m.mode (resolve m s).crossed = readCycles m.mode false + if (resolve m s).crossed then 1 else 0 := by
  cases m with
  | zp | zpX | zpY | abs | indX => rfl
  | absX | absY | indY => cases (resolve _ s).crossed <;> rfl

/-- The cycles of a read-class instruction are its mode's and the page penalty (R182). -/
theorem readOperand_cost (o : ReadOperand) (s : State) :
    (readOperand o s).cycles = readCycles o.mode false + penalty o s := by
  cases o with
  | imm b => rfl
  | mem m => exact readCycles_resolve m s

/-! ### The rules by class -/

/-- A line whose rows have the cycles of their mode answers them for every mode it lists. -/
theorem cycles_of_lookup {line : Line} {cost : Mode → Nat} (h : ∀ row ∈ line, row.2.2 = cost row.1) {m : Mode}
    {op : Byte} {base : Nat} (hl : line.lookup m = some (op, base)) : base = cost m := by
  obtain ⟨l₁, l₂, rfl, -⟩ := List.lookup_eq_some_iff.mp hl
  exact h (m, op, base) (by simp)

/-- A read-class rule holds of a mnemonic with the line's encodings, the read class's cycles, and an effect that is all
the instruction does after its operand is read. -/
theorem readRule_of_exec {mk : ReadOperand → Instr} {line : Line} {effect : Byte → State → State}
    (hencode : ∀ o, encode (mk o) = (line.lookup o.mode).map fun row => row.1 :: o.bytes)
    (hcycles : ∀ row ∈ line, row.2.2 = readCycles row.1 false)
    (heffect : ∀ v t, (effect v t).cycles = t.cycles)
    (hexec : ∀ o s, exec (mk o) s =
      .next ((effect (readOperand o s).value (readOperand o s).st).addCycles (readOperand o s).cycles)) :
    ReadRule mk line effect := by
  intro o s
  cases hl : line.lookup o.mode with
  | none => simpa [hl] using hencode o
  | some row =>
    obtain ⟨op, base⟩ := row
    refine ⟨by simpa [hl] using hencode o, ?_⟩
    have hbase : base = readCycles o.mode false := cycles_of_lookup (cost := (readCycles · false)) hcycles hl
    rw [hexec, readOperand_cost, readOperand_value, readOperand_st, ← hbase, State.addCycles, heffect,
      afterRead_cycles, Nat.add_assoc]

/-- A write-class rule holds of a mnemonic with the line's encodings, the write class's cycles, and the one store. -/
theorem storeRule_of_exec {mk : MemOperand → Instr} {line : Line} {value : State → Byte}
    (hencode : ∀ m, encode (mk m) = (line.lookup m.mode).map fun row => row.1 :: m.bytes)
    (hcycles : ∀ row ∈ line, row.2.2 = writeCycles row.1)
    (hexec : ∀ m s, exec (mk m) s = .next (store m (value s) s)) : StoreRule mk line value := by
  intro m s
  cases hl : line.lookup m.mode with
  | none => simpa [hl] using hencode m
  | some row =>
    obtain ⟨op, base⟩ := row
    refine ⟨by simpa [hl] using hencode m, ?_⟩
    have hbase : base = writeCycles m.mode := cycles_of_lookup hcycles hl
    rw [hexec, store, ← hbase, State.addCycles, writeByte_cycles, resolve_cycles]

/-- The eight-form lines have the read class's cycles, whatever the opcode bytes (R182, R200). -/
theorem aluLine_cycles {imm zp zpX abs absX absY indX indY : Byte} :
    ∀ row ∈ aluLine imm zp zpX abs absX absY indX indY, row.2.2 = readCycles row.1 false := by
  simp [aluLine, readCycles]

/-! ### Loads and stores -/

/-- Settles O39: the three loads differ in their line and the register; their encodings are compared form by form. -/
theorem loadsFollowTheirRules : Obligations.LoadsFollowTheirRules := by
  refine ⟨readRule_of_exec ?_ aluLine_cycles (fun _ _ => rfl) fun _ _ => rfl,
    readRule_of_exec ?_ (by decide) (fun _ _ => rfl) fun _ _ => rfl,
    readRule_of_exec ?_ (by decide) (fun _ _ => rfl) fun _ _ => rfl⟩
  all_goals
    intro o
    rcases o with b | m
    · rfl
    · cases m <;> rfl

/-- Settles O40: the three stores differ in their line and the register; their encodings are compared form by form. -/
theorem storesFollowTheirRules : Obligations.StoresFollowTheirRules := by
  refine ⟨storeRule_of_exec ?_ (by decide) fun _ _ => rfl, storeRule_of_exec ?_ (by decide) fun _ _ => rfl,
    storeRule_of_exec ?_ (by decide) fun _ _ => rfl⟩
  all_goals
    intro m
    cases m <;> rfl

end Sys2Proof.Proofs

/-! PROOFS. The transfers' and the stack instructions' statements (42_transfer_stack.md): the rule of an instruction
without operand bytes, a push and a pull in the statements' words, and what a pull reads of the pushes before it. -/

namespace Sys2Proof.Proofs

open Sys2Proof.Machine Sys2Proof.Claims

/-! ### Instructions without operand bytes -/

/-- An implied-mode rule holds of an instruction with the rule's opcode byte that is the effect and then the cycles. -/
theorem impliedRule_of_exec {i : Instr} {op : Byte} {effect : State → State} {cycles : Nat}
    (hencode : encode i = some [op]) (heffect : ∀ s, (effect s).cycles = s.cycles)
    (hexec : ∀ s, exec i s = .next ((effect s).addCycles cycles)) : ImpliedRule i op effect cycles := by
  intro s
  refine ⟨hencode, ?_⟩
  rw [hexec, State.addCycles, heffect]

/-- Settles O41: each transfer is one update of the target register and, but for TXS, of N and Z. -/
theorem transfersFollowTheirRules : Obligations.TransfersFollowTheirRules := by
  refine ⟨?tax, ?tay, ?txa, ?tya, ?tsx, ?txs⟩
  all_goals exact impliedRule_of_exec rfl (fun _ => rfl) fun _ => rfl

/-! ### The stack instructions -/

/-- A push in the statements' words (R88). -/
theorem push_eq_slot (s : State) (v : Byte) : push s v = (writeByte s (slot s.sp) v).setSP (s.sp - 1#8) := by
  rw [push_eq, stackAddr_eq_slot]

/-- A pull in the statements' words (R89). -/
theorem pull_eq_slot (s : State) :
    pull s = { val := peek s (slot (s.sp + 1#8)), st := (touch s (slot (s.sp + 1#8))).setSP (s.sp + 1#8) } := by
  rw [pull_eq, stackAddr_eq_slot]

/-- The pushed status byte as a number: the bits of `PushP` are disjoint (R37). -/
theorem pushed_eq_ofNat (p : Flags) :
    p.pushed = BitVec.ofNat 8 (carry p.n * 128 + carry p.v * 64 + 0x20 + 0x10 +
      carry p.d * 8 + carry p.i * 4 + carry p.z * 2 + carry p.c) := by
  obtain ⟨n, v, d, i, z, c⟩ := p
  cases n <;> cases v <;> cases d <;> cases i <;> cases z <;> cases c <;> rfl

/-- Settles O42: PHA and PHP are one push, PLA and PLP one pull and the registers it sets. -/
theorem stackInstructionsFollowTheirRules : Obligations.StackInstructionsFollowTheirRules := by
  unfold Obligations.StackInstructionsFollowTheirRules
  intro status
  have hstatus (p : Flags) : p.pushed = status p := pushed_eq_ofNat p
  refine ⟨?pha, ?php, ?pla, ?plp⟩
  case pha =>
    refine impliedRule_of_exec rfl (fun s => writeByte_cycles s _ _) fun s => ?_
    simp only [exec, execPha, push_eq_slot, State.setSP]
  case php =>
    refine impliedRule_of_exec rfl (fun s => writeByte_cycles s _ _) fun s => ?_
    simp only [exec, execPhp, push_eq_slot, hstatus, State.setSP]
  case pla =>
    refine impliedRule_of_exec rfl (fun s => touch_cycles s _) fun s => ?_
    simp only [exec, execPla, pull_eq_slot, State.setSP_p, touch_p]
    rfl
  case plp =>
    refine impliedRule_of_exec rfl (fun s => touch_cycles s _) fun s => ?_
    simp only [exec, execPlp, pull_eq_slot]
    rfl

/-! ### What a pull reads of the pushes before it -/

/-- Different values of S name different slots. -/
theorem slot_inj {sp sp' : Byte} : slot sp = slot sp' ↔ sp = sp' := by
  refine ⟨fun h => ?_, congrArg slot⟩
  rw [← stackAddr_eq_slot, ← stackAddr_eq_slot] at h
  simpa [stackAddr] using congrArg lowByte h

section Slots

variable {s t : State} (hw : Memory.wf s.ram = true)

/-- A pull reads the RAM byte of the slot above S (R89). -/
theorem pull_val_of_slot {sp : Byte} (hsp : t.sp = sp - 1#8) (h : (slot sp).toNat < t.cfg.ramSize) :
    (pull t).val = Memory.get t.ram (slot sp).toNat := by
  rw [pull_eq_slot, hsp, BitVec.sub_add_cancel, peek_ram h]

include hw

theorem push_wf (v : Byte) : Memory.wf (push s v).ram = true := by
  rw [push_eq_slot]
  exact writeByte_wf _ v hw

/-- The slot a push stores to holds the byte. -/
theorem push_get_slot (v : Byte) (h : (slot s.sp).toNat < s.cfg.ramSize) :
    Memory.get (push s v).ram (slot s.sp).toNat = v := by
  rw [push_eq_slot, State.setSP_ram, writeByte_of_ram v h, State.setRam_ram, Memory.get_set hw, if_pos rfl]

/-- A push leaves every other slot alone. -/
theorem push_get_slot_of_ne (v : Byte) {sp : Byte} (h : sp ≠ s.sp) :
    Memory.get (push s v).ram (slot sp).toNat = Memory.get s.ram (slot sp).toNat := by
  rw [push_eq_slot]
  exact writeByte_get_of_ne v hw (slot_inj.not.mpr h)

/-- Where the slot is RAM, a pull gives the byte of the push before it, whatever else has changed in between but the
configuration, RAM and S (R88, R89). -/
theorem pull_val_of_push {v : Byte} (h : (slot s.sp).toNat < s.cfg.ramSize) (hcfg : t.cfg = s.cfg)
    (hram : t.ram = (push s v).ram) (hsp : t.sp = s.sp - 1#8) : (pull t).val = v := by
  rw [pull_val_of_slot hsp (hcfg ▸ h), hram, push_get_slot hw v h]

/-- Where both slots are RAM, two pulls give the word of the two pushes before them, low byte first (R302, R303). -/
theorem pullWord_val_of_pushWord {w : Addr} (h0 : (slot s.sp).toNat < s.cfg.ramSize)
    (h1 : (slot (s.sp - 1#8)).toNat < s.cfg.ramSize) (hcfg : t.cfg = s.cfg) (hram : t.ram = (pushWord s w).ram)
    (hsp : t.sp = s.sp - 2#8) : (pullWord t).val = w := by
  have hlow : (pull t).val = lowByte w :=
    pull_val_of_push (s := push s (highByte w)) (push_wf hw _) (by simpa using h1) (by simpa using hcfg) hram
      (by rw [push_sp, BitVec.sub_sub]; exact hsp)
  have hhigh : (pull (pull t).st).val = highByte w := by
    have hne : s.sp ≠ (push s (highByte w)).sp := by rw [push_sp]; bv_omega
    rw [pull_val_of_slot (sp := s.sp) (by rw [pull_sp, hsp]; bv_omega) (by simpa [hcfg] using h0), pull_ram, hram,
      pushWord, push_get_slot_of_ne (push_wf hw _) _ hne, push_get_slot hw _ h0]
  calc (pullWord t).val = hiLo (pull (pull t).st).val (pull t).val := rfl
    _ = hiLo (highByte w) (lowByte w) := by rw [hhigh, hlow]
    _ = w := hiLo_halves w

end Slots

/-- Settles O54: each pull gives what the push before it stored, and S goes up by what it went down. -/
theorem pullsUndoPushes : Obligations.PullsUndoPushes := by
  intro s w pc a p hw h0 h1
  refine ⟨⟨_, _, rfl, rfl, ?flags, ?_⟩, ⟨_, _, rfl, rfl, ?accumulator, ?_⟩, ⟨_, _, rfl, rfl, rfl, ?returns, ?_⟩⟩
  case flags =>
    have hbyte : (pull { (push s s.p.pushed).addCycles 3 with p := p }).val = s.p.pushed :=
      pull_val_of_push hw h0 (push_cfg _ s) rfl (push_sp _ s)
    exact (congrArg Flags.pulled hbyte).trans (Flags.pulled_pushed s.p)
  case accumulator =>
    exact pull_val_of_push hw h0 (push_cfg s.a s) rfl (push_sp s.a s)
  case returns =>
    have hret : (pullWord { ((pushWord s (s.pc - 1#16)).setPC w).addCycles 6 with pc := pc }).val = s.pc - 1#16 :=
      pullWord_val_of_pushWord hw h0 h1 (pushWord_cfg _ s) rfl (pushWord_sp _ s)
    exact (congrArg (· + 1#16) hret).trans (BitVec.sub_add_cancel _ _)
  all_goals simp

end Sys2Proof.Proofs

/-! PROOFS. The arithmetic's statements (43_arithmetic.md): the masks and sign tests of the flag computations as numbers,
addition and subtraction as numbers and on BCD operands, compares, and the rule of the read-modify-write class. -/

namespace Sys2Proof.Proofs

open Sys2Proof.Machine Sys2Proof.Claims

/-! ### Masks, signs and carries as numbers -/

theorem carryIn_eq_carry (c : Bool) : carryIn c = carry c := rfl

theorem carry_le_one (c : Bool) : carry c ≤ 1 := by cases c <;> decide

theorem and_0x0F_toNat (b : Byte) : (b &&& 0x0F#8).toNat = b.toNat % 16 :=
  Nat.and_two_pow_sub_one_eq_mod b.toNat 4

theorem and_0xF0_toNat (b : Byte) : (b &&& 0xF0#8).toNat = b.toNat / 16 * 16 := by
  have hshift : b >>> 4 <<< 4 = b &&& 0xF0#8 := BitVec.shiftLeft_ushiftRight
  rw [← hshift, BitVec.toNat_shiftLeft, BitVec.toNat_ushiftRight, Nat.shiftRight_eq_div_pow, Nat.shiftLeft_eq]
  omega

theorem complement_toNat (b : Byte) : (~~~b &&& 0xFF#8).toNat = 255 - b.toNat := by
  rw [show 0xFF#8 = BitVec.allOnes 8 from rfl, BitVec.and_allOnes, BitVec.toNat_not]

theorem ofNat_eq_zero_iff (n : Nat) : BitVec.ofNat 8 n = 0#8 ↔ n % 256 = 0 := by
  rw [← BitVec.toNat_inj, BitVec.toNat_ofNat, BitVec.toNat_ofNat]

theorem bit7_eq_decide (b : Byte) : bit7 b = decide (128 ≤ b.toNat) := BitVec.msb_eq_decide b

theorem bit7_ofInt (i : Int) : bit7 (BitVec.ofInt 8 i) = decide (128 ≤ i % 256) := by
  rw [bit7_eq_decide, BitVec.toNat_ofInt, decide_eq_decide]
  omega

/-- A byte as a signed integer, by its sign (R14). -/
theorem toInt_eq_sub (b : Byte) : b.toInt = (b.toNat : Int) - if 128 ≤ b.toNat then 256 else 0 := by
  rw [BitVec.toInt_eq_toNat_cond]
  split <;> split <;> omega

theorem and_0xF0_s8 (b : Byte) :
    s8 (b &&& 0xF0#8) = (b.toNat / 16 * 16 : Nat) - (if 128 ≤ b.toNat then 256 else 0 : Int) := by
  have hsign : 128 ≤ b.toNat / 16 * 16 ↔ 128 ≤ b.toNat := by omega
  rw [s8, toInt_eq_sub, and_0xF0_toNat]
  simp only [hsign]

theorem and_0x80_ne_zero_iff (b : Byte) : b &&& 0x80#8 ≠ 0#8 ↔ bit7 b = true := by
  have hmask : b &&& 0x80#8 = if bit7 b then 0x80#8 else 0#8 := BitVec.and_twoPow b 7
  rw [hmask]
  cases bit7 b <;> decide

/-- The form of the V formulas (R241, R244): both pairs of bytes have different signs. -/
theorem xor_and_xor_sign_iff (a b c d : Byte) :
    (a ^^^ b) &&& (c ^^^ d) &&& 0x80#8 ≠ 0#8 ↔
      ¬ (128 ≤ a.toNat ↔ 128 ≤ b.toNat) ∧ ¬ (128 ≤ c.toNat ↔ 128 ≤ d.toNat) := by
  have hbit : bit7 ((a ^^^ b) &&& (c ^^^ d)) = ((bit7 a ^^ bit7 b) && (bit7 c ^^ bit7 d)) := by
    simp only [bit7, BitVec.getLsbD_and, BitVec.getLsbD_xor]
  rw [and_0x80_ne_zero_iff, hbit]
  simp only [bit7_eq_decide, Bool.and_eq_true, bne_iff_ne, ne_eq, decide_eq_decide]

/-! ### Addition -/

/-- Binary addition as numbers; V by the four cases of the operands' signs (R241, R242). -/
theorem adcBinary_eq (a m : Byte) (c : Bool) :
    adcBinary a m c =
      let sum := a.toNat + m.toNat + carry c
      { value := BitVec.ofNat 8 sum
        n := bit7 (BitVec.ofNat 8 sum)
        v := decide (OutOfRange (a.toInt + m.toInt + carry c))
        z := decide (BitVec.ofNat 8 sum = 0#8)
        c := decide (255 < sum) } := by
  have hv : (adcBinary a m c).v = decide (OutOfRange (a.toInt + m.toInt + carry c)) := by
    have := carry_le_one c
    unfold adcBinary
    rw [decide_eq_decide, xor_and_xor_sign_iff, toInt_eq_sub, toInt_eq_sub, BitVec.toNat_ofNat, carryIn_eq_carry]
    split <;> split <;> omega
  rw [← hv]
  rfl

/-- The low digit with its carry, as numbers (R243). -/
theorem adcLowDigit_eq (a m : Byte) (c : Bool) :
    adcLowDigit a m c =
      let low := a.toNat % 16 + m.toNat % 16 + carry c
      if 10 ≤ low then (low + 6) % 16 + 16 else low := by
  simp only [adcLowDigit, and_0x0F_toNat, carryIn_eq_carry]

/-- Decimal addition as numbers, from the adjusted low digit on (R243). -/
theorem adcDecimal_eq (a m : Byte) (c : Bool) :
    adcDecimal a m c =
      let i : Int := s8 (a &&& 0xF0#8) + s8 (m &&& 0xF0#8) + adcLowDigit a m c
      let r := a.toNat / 16 * 16 + m.toNat / 16 * 16 + adcLowDigit a m c
      let r := if 0xA0 ≤ r then r + 0x60 else r
      { value := BitVec.ofNat 8 r
        n := decide (128 ≤ i % 256)
        v := decide (OutOfRange i)
        z := decide ((a.toNat + m.toNat + carry c) % 256 = 0)
        c := decide (256 ≤ r) } := by
  simp only [adcDecimal, and_0xF0_toNat, bit7_ofInt, ofNat_eq_zero_iff, carryIn_eq_carry, Bool.decide_or]

/-- On BCD operands decimal addition is addition of decimal numbers, with or without a carry out of the low digit and
out of the high one (R243). -/
theorem adcDecimal_bcd {a m : Byte} (c : Bool) (ha : IsBcd a) (hm : IsBcd m) :
    IsBcd (adcDecimal a m c).value ∧
      bcd (adcDecimal a m c).value + 100 * carry (adcDecimal a m c).c = bcd a + bcd m + carry c := by
  have hc : carry c ≤ 1 := carry_le_one c
  obtain ⟨haHigh, haLow⟩ := ha
  obtain ⟨hmHigh, hmLow⟩ := hm
  rw [adcDecimal_eq, adcLowDigit_eq]
  generalize carry c = k at hc ⊢
  simp only [IsBcd, bcd, BitVec.toNat_ofNat, carry, decide_eq_true_eq]
  by_cases hlow : 10 ≤ a.toNat % 16 + m.toNat % 16 + k
  · simp only [hlow, if_true]
    split <;> split <;> omega
  · simp only [hlow, if_false]
    split <;> split <;> omega

/-! ### Subtraction -/

/-- The sum with the complement is 256 above the difference, its carry the "no borrow" flag; V by the four cases of the
operands' signs (R241, R244). -/
theorem sbcBinary_eq (a m : Byte) (c : Bool) :
    sbcBinary a m c =
      let diff : Int := a.toNat - m.toNat - (1 - carry c)
      { value := BitVec.ofInt 8 diff
        n := bit7 (BitVec.ofInt 8 diff)
        v := decide (OutOfRange (a.toInt - m.toInt - (1 - carry c)))
        z := decide (BitVec.ofInt 8 diff = 0#8)
        c := decide (0 ≤ diff) } := by
  extract_lets diff
  have := carry_le_one c
  have hsum : ((a.toNat + (~~~m &&& 0xFF#8).toNat + carryIn c : Nat) : Int) = diff + 256 := by
    rw [complement_toNat, carryIn_eq_carry]
    omega
  have hvalue : BitVec.ofNat 8 (a.toNat + (~~~m &&& 0xFF#8).toNat + carryIn c) = BitVec.ofInt 8 diff := by
    apply BitVec.eq_of_toNat_eq
    rw [BitVec.toNat_ofNat, BitVec.toNat_ofInt]
    omega
  have hcarry : 0xFF < a.toNat + (~~~m &&& 0xFF#8).toNat + carryIn c ↔ 0 ≤ diff := by omega
  have hv : (a ^^^ m) &&& (a ^^^ BitVec.ofInt 8 diff) &&& 0x80#8 ≠ 0#8 ↔
      OutOfRange (a.toInt - m.toInt - (1 - carry c)) := by
    rw [xor_and_xor_sign_iff, toInt_eq_sub, toInt_eq_sub, BitVec.toNat_ofInt]
    split <;> split <;> omega
  simp only [sbcBinary, hvalue, hcarry, hv]

/-- The low digit with its borrow, as numbers (R245). -/
theorem sbcLowDigit_eq (a m : Byte) (c : Bool) :
    sbcLowDigit a m c =
      let low : Int := (a.toNat % 16 : Nat) - (m.toNat % 16 : Nat) + carry c - 1
      if low < 0 then (low - 6) % 16 - 16 else low := by
  simp only [sbcLowDigit, and_0x0F_toNat, carryIn_eq_carry]

/-- The decimal difference as numbers, from the adjusted low digit on (R245). -/
theorem sbcDecimalValue_eq (a m : Byte) (c : Bool) :
    sbcDecimalValue a m c =
      let r : Int := (a.toNat / 16 * 16 : Nat) - (m.toNat / 16 * 16 : Nat) + sbcLowDigit a m c
      BitVec.ofInt 8 (if r < 0 then r - 0x60 else r) := by
  simp only [sbcDecimalValue, and_0xF0_toNat]

/-- On BCD operands the decimal difference is that of decimal numbers modulo 100, with or without a borrow from the high
digit and from beyond it (R245). -/
theorem sbcDecimal_bcd {a m : Byte} (c : Bool) (ha : IsBcd a) (hm : IsBcd m) :
    IsBcd (sbcDecimal a m c).value ∧
      bcd (sbcDecimal a m c).value + bcd m + 1 = bcd a + carry c + 100 * (1 - carry (sbcDecimal a m c).c) := by
  have hc : carry c ≤ 1 := carry_le_one c
  obtain ⟨haHigh, haLow⟩ := ha
  obtain ⟨hmHigh, hmLow⟩ := hm
  rw [sbcDecimal, sbcBinary_eq, sbcDecimalValue_eq, sbcLowDigit_eq]
  generalize carry c = k at hc ⊢
  simp only [IsBcd, bcd, BitVec.toNat_ofInt, carry, decide_eq_true_eq]
  by_cases hlow : (a.toNat % 16 : Nat) - (m.toNat % 16 : Nat) + k - 1 < (0 : Int)
  · simp only [hlow, if_true]
    split <;> split <;> omega
  · simp only [hlow, if_false]
    split <;> split <;> omega

/-! ### ADC and SBC -/

/-- D selects decimal arithmetic in `DecimalMode = nmos` alone (R242, R244). -/
theorem decimalSelected_iff {cfg : Config} {p : Flags} :
    decimalSelected cfg p = true ↔ p.d = true ∧ cfg.decimalMode = .nmos := by
  simp [decimalSelected]

/-- A read-class rule of an addition or subtraction into A: its effect is to write back what the operation leaves. -/
theorem readRule_of_accumulate {mk : ReadOperand → Instr} {line : Line} {effect : Byte → State → State}
    {f : Config → Flags → Byte → Byte → Arith}
    (hencode : ∀ o, encode (mk o) = (line.lookup o.mode).map fun row => row.1 :: o.bytes)
    (hcycles : ∀ row ∈ line, row.2.2 = readCycles row.1 false)
    (hexec : ∀ o s, exec (mk o) s = .next (accumulate o f s))
    (heffect : ∀ m t, effect m t =
      (t.setA (f t.cfg t.p t.a m).value).setP (t.p.setArith (f t.cfg t.p t.a m))) : ReadRule mk line effect := by
  refine readRule_of_exec hencode hcycles (fun m t => ?_) fun o s => ?_
  · rw [heffect, State.setP_cycles, State.setA_cycles]
  · rw [hexec, heffect]
    rfl

/-- Settles O43: decimal and binary addition as numbers, the encodings compared form by form. -/
theorem adcFollowsItsRules : Obligations.AdcFollowsItsRules := by
  unfold Obligations.AdcFollowsItsRules
  refine readRule_of_accumulate (f := adcResult) ?encode aluLine_cycles (fun _ _ => rfl) fun m t => ?effect
  case encode =>
    intro o
    rcases o with b | m
    · rfl
    · cases m <;> rfl
  case effect =>
    simp only [adcResult, decimalSelected_iff]
    split
    · rw [adcDecimal_eq, adcLowDigit_eq, and_0xF0_s8, and_0xF0_s8]
      rfl
    · rw [adcBinary_eq]
      rfl

/-- Settles O44: the value by the mode, the flags by the binary difference; the encodings compared form by form. -/
theorem sbcFollowsItsRules : Obligations.SbcFollowsItsRules := by
  unfold Obligations.SbcFollowsItsRules
  refine readRule_of_accumulate (f := sbcResult) ?encode aluLine_cycles (fun _ _ => rfl) fun m t => ?effect
  case encode =>
    intro o
    rcases o with b | m
    · rfl
    · cases m <;> rfl
  case effect =>
    simp only [sbcResult, decimalSelected_iff]
    split
    · rw [sbcDecimal, sbcBinary_eq, sbcDecimalValue_eq, sbcLowDigit_eq]
      rfl
    · rw [sbcBinary_eq]
      rfl

/-- Settles O45: in this mode ADC leaves in A and C what decimal addition gives. -/
theorem decimalAdcAddsBcd : Obligations.DecimalAdcAddsBcd := by
  intro o s hd hmode ha hm
  have hdecimal : decimalSelected s.cfg s.p = true := decimalSelected_iff.mpr ⟨hd, hmode⟩
  refine ⟨_, rfl, ?_⟩
  simpa [accumulate, adcResult, hdecimal, Flags.setArith, readOperand_value] using adcDecimal_bcd s.p.c ha hm

/-- Settles O46: in this mode SBC leaves in A the decimal difference and in C the binary "no borrow". -/
theorem decimalSbcSubtractsBcd : Obligations.DecimalSbcSubtractsBcd := by
  intro o s hd hmode ha hm
  have hdecimal : decimalSelected s.cfg s.p = true := decimalSelected_iff.mpr ⟨hd, hmode⟩
  refine ⟨_, rfl, ?_⟩
  simpa [accumulate, sbcResult, hdecimal, Flags.setArith, readOperand_value] using sbcDecimal_bcd s.p.c ha hm

/-! ### Compares -/

/-- The lines of CPX and CPY have the read class's cycles, whatever the opcode bytes (R247, R248). -/
theorem shortLine_cycles {imm zp abs : Byte} :
    ∀ row ∈ shortLine imm zp abs, row.2.2 = readCycles row.1 false := by
  simp [shortLine, readCycles]

/-- The outcome table of a compare (R249). -/
theorem setCompare_eq (p : Flags) (r m : Byte) :
    p.setCompare r m = { p with
      n := decide (128 ≤ (r.toNat + 256 - m.toNat) % 256), z := decide (r = m), c := decide (m.toNat ≤ r.toNat) } := by
  have hn : bit7 (r - m) = decide (128 ≤ (r.toNat + 256 - m.toNat) % 256) := by
    rw [bit7_eq_decide, BitVec.toNat_sub, decide_eq_decide]
    omega
  have hz : r - m = 0#8 ↔ r = m := sub_eq_zero
  simp only [Flags.setCompare, Flags.setNZ, Flags.setC, hn, hz]

/-- A read-class rule of a compare: the operand's read leaves the compared register alone. -/
theorem readRule_of_compare {mk : ReadOperand → Instr} {line : Line} {register : State → Byte}
    (hencode : ∀ o, encode (mk o) = (line.lookup o.mode).map fun row => row.1 :: o.bytes)
    (hcycles : ∀ row ∈ line, row.2.2 = readCycles row.1 false)
    (hregister : ∀ o s, register (readOperand o s).st = register s)
    (hexec : ∀ o s, exec (mk o) s = .next (compareWith o (register s) s)) :
    ReadRule mk line fun m t => { t with p := t.p.setCompare (register t) m } := by
  refine readRule_of_exec hencode hcycles (fun _ _ => rfl) fun o s => ?_
  rw [hexec, ← hregister o]
  rfl

/-- Settles O47: the compares differ in their line and the register; their encodings are compared form by form. -/
theorem comparesFollowTheirRules : Obligations.ComparesFollowTheirRules := by
  unfold Obligations.ComparesFollowTheirRules
  simp only [← setCompare_eq]
  refine ⟨readRule_of_compare (register := State.a) ?_ aluLine_cycles readOperand_a fun _ _ => rfl,
    readRule_of_compare (register := State.x) ?_ shortLine_cycles readOperand_x fun _ _ => rfl,
    readRule_of_compare (register := State.y) ?_ shortLine_cycles readOperand_y fun _ _ => rfl⟩
  all_goals
    intro o
    rcases o with b | m
    · rfl
    · cases m <;> rfl

/-! ### Increments and decrements -/

/-- A read-modify-write rule holds of a mnemonic with the line's encodings, the class's cycles, and the one read and one
write with the flags set after them. -/
theorem modifyRule_of_exec {mk : MemOperand → Instr} {line : Line} {f : Byte → Byte} {flags : Byte → Flags → Flags}
    (hencode : ∀ m, encode (mk m) = (line.lookup m.mode).map fun row => row.1 :: m.bytes)
    (hcycles : ∀ row ∈ line, row.2.2 = modifyCycles row.1)
    (hexec : ∀ m s, exec (mk m) s =
      .next ((modifyMem m f s).st.setP (flags (modifyMem m f s).val (modifyMem m f s).st.p))) :
    ModifyRule mk line f flags := by
  intro m s r v
  cases hl : line.lookup m.mode with
  | none => simpa [hl] using hencode m
  | some row =>
    obtain ⟨op, base⟩ := row
    refine ⟨by simpa [hl] using hencode m, ?_⟩
    have hbase : base = modifyCycles m.mode := cycles_of_lookup hcycles hl
    rw [hexec, modifyMem_p, hbase, ← modifyMem_cycles m f s]
    rfl

/-- The lines of the read-modify-write class have its cycles, whatever the opcode bytes (R250, R274). -/
theorem modifyLine_cycles {zp zpX abs absX : Byte} :
    ∀ row ∈ modifyLine zp zpX abs absX, row.2.2 = modifyCycles row.1 := by
  simp [modifyLine, modifyCycles]

theorem ofNat_toNat_add_one (v : Byte) : BitVec.ofNat 8 (v.toNat + 1) = v + 1#8 := by bv_omega

/-- 255 more is 1 less modulo 2^8. -/
theorem ofNat_toNat_add_255 (v : Byte) : BitVec.ofNat 8 (v.toNat + 255) = v - 1#8 := by bv_omega

/-- Settles O48: one step of memory or of a register each; the encodings on memory compared form by form. -/
theorem incrementsAndDecrementsFollowTheirRules : Obligations.IncrementsAndDecrementsFollowTheirRules := by
  unfold Obligations.IncrementsAndDecrementsFollowTheirRules
  simp only [ofNat_toNat_add_one, ofNat_toNat_add_255]
  refine ⟨modifyRule_of_exec ?inc modifyLine_cycles fun _ _ => rfl,
    modifyRule_of_exec ?dec modifyLine_cycles fun _ _ => rfl, ?inx, ?iny, ?dex, ?dey⟩
  case inc | dec =>
    intro m
    cases m <;> rfl
  all_goals exact impliedRule_of_exec rfl (fun _ => rfl) fun _ => rfl

end Sys2Proof.Proofs

/-! PROOFS. The logic's and the shifts' statements (44_logic_shift.md): the results of the shifts as numbers, and the rule
of a shift or rotate on the accumulator and on memory. -/

namespace Sys2Proof.Proofs

open Sys2Proof.Machine Sys2Proof.Claims

/-! ### AND, ORA, EOR and BIT -/

/-- Settles O49: the three operations are the bitwise ones of bytes; the encodings are compared form by form. -/
theorem logicFollowsItsRules : Obligations.LogicFollowsItsRules := by
  refine ⟨(· &&& ·), (· ||| ·), (· ^^^ ·), fun _ _ _ => BitVec.getLsbD_and, fun _ _ _ => BitVec.getLsbD_or,
    fun _ _ _ => BitVec.getLsbD_xor,
    readRule_of_exec ?and aluLine_cycles (fun _ _ => rfl) fun _ _ => rfl,
    readRule_of_exec ?ora aluLine_cycles (fun _ _ => rfl) fun _ _ => rfl,
    readRule_of_exec ?eor aluLine_cycles (fun _ _ => rfl) fun _ _ => rfl⟩
  all_goals
    intro o
    rcases o with b | m
    · rfl
    · cases m <;> rfl

/-- BIT reads its operand and writes flags; the read leaves A and the flags it starts from alone (R273). -/
theorem exec_bit (m : MemOperand) (s : State) :
    exec (.bit m) s = .next { touch (resolve m s).st (resolve m s).ea with
      p := s.p.setBit s.a (peek (resolve m s).st (resolve m s).ea)
      cycles := s.cycles + readCycles m.mode (resolve m s).crossed } := by
  simp [exec, execBit, readMemOperand, readByte, State.setP, State.addCycles]

/-- Settles O50: BIT has an encoding in two modes, and neither can cross a page. -/
theorem bitTestFollowsItsRule : Obligations.BitTestFollowsItsRule := by
  intro m s
  cases m with
  | zp _ | abs _ => exact ⟨rfl, exec_bit _ s⟩
  | zpX _ | zpY _ | absX _ | absY _ | indX _ | indY _ => rfl

/-! ### Shifts and rotates as numbers -/

theorem shiftLeft_one_eq_ofNat (v : Byte) : v <<< 1 = BitVec.ofNat 8 (v.toNat * 2) :=
  congrArg (BitVec.ofNat 8) (Nat.shiftLeft_eq v.toNat 1)

theorem ushiftRight_one_eq_ofNat (v : Byte) : v >>> 1 = BitVec.ofNat 8 (v.toNat / 2) := by
  refine BitVec.eq_of_toNat_eq ?_
  rw [BitVec.toNat_ushiftRight, Nat.shiftRight_eq_div_pow, BitVec.toNat_ofNat]
  omega

theorem flagBit_eq_ofNat (c : Bool) (k : Nat) : flagBit c k = BitVec.ofNat 8 (2 ^ k * carry c) := by
  cases c with
  | false => rfl
  | true => exact congrArg (BitVec.ofNat 8) ((Nat.one_shiftLeft k).trans (Nat.mul_one _).symm)

/-- A flag put into a bit that is clear is a sum. -/
theorem or_flagBit_of_clear {v : Byte} {k : Nat} (c : Bool) (hclear : v.getLsbD k = false) :
    v ||| flagBit c k = v + BitVec.ofNat 8 (2 ^ k * carry c) := by
  have hdisjoint : v &&& flagBit c k = 0#8 := by
    cases c with
    | false => exact BitVec.and_zero
    | true => exact (BitVec.and_twoPow v k).trans (if_neg (by rw [hclear]; decide))
  rw [← BitVec.add_eq_or_of_and_eq_zero _ _ hdisjoint, flagBit_eq_ofNat]

/-- ASL doubles (R274). -/
theorem aslResult_eq (v : Byte) :
    aslResult v = { value := BitVec.ofNat 8 (v.toNat * 2), carry := v.getLsbD 7 } := by
  rw [aslResult, shiftLeft_one_eq_ofNat]

/-- LSR halves (R275). -/
theorem lsrResult_eq (v : Byte) :
    lsrResult v = { value := BitVec.ofNat 8 (v.toNat / 2), carry := v.getLsbD 0 } := by
  rw [lsrResult, ushiftRight_one_eq_ofNat]

/-- ROL shifts the old C into the bit that doubling clears (R276). -/
theorem rolResult_eq (c : Bool) (v : Byte) :
    rolResult c v = { value := BitVec.ofNat 8 (v.toNat * 2 + carry c), carry := v.getLsbD 7 } := by
  have hclear : (v <<< 1).getLsbD 0 = false := by simp
  rw [rolResult, or_flagBit_of_clear c hclear, shiftLeft_one_eq_ofNat, ← BitVec.ofNat_add, Nat.pow_zero, Nat.one_mul]

/-- ROR shifts the old C into the bit that halving clears (R277). -/
theorem rorResult_eq (c : Bool) (v : Byte) :
    rorResult c v = { value := BitVec.ofNat 8 (v.toNat / 2 + 128 * carry c), carry := v.getLsbD 0 } := by
  have hclear : (v >>> 1).getLsbD 7 = false := by simp
  rw [rorResult, or_flagBit_of_clear c hclear, ushiftRight_one_eq_ofNat, ← BitVec.ofNat_add,
    show 2 ^ 7 = 128 from rfl]

/-! ### Shifts and rotates -/

/-- A shift's rule holds of a mnemonic with its encodings, the read-modify-write class's cycles, and one `shift` through
the C the instruction finds, of the value and the carry the rule names. -/
theorem shiftRule_of_exec {mk : ShiftOperand → Instr} {accOp : Byte} {line : Line} {f : Bool → Byte → Shifted}
    {value : Bool → Byte → Byte} {out : Nat}
    (haccumulator : encode (mk .acc) = some [accOp])
    (hencode : ∀ m, encode (mk (.mem m)) = (line.lookup m.mode).map fun row => row.1 :: m.bytes)
    (hcycles : ∀ row ∈ line, row.2.2 = modifyCycles row.1)
    (hresult : ∀ c v, f c v = { value := value c v, carry := v.getLsbD out })
    (hexec : ∀ o s, exec (mk o) s = .next (shift o (f s.p.c) s)) : ShiftRule mk accOp line value out := by
  intro m s r v
  refine ⟨haccumulator, ?acc, ?mem⟩
  case acc =>
    simp only [hexec, shift, hresult]
    rfl
  case mem =>
    cases hl : line.lookup m.mode with
    | none => simpa [hl] using hencode m
    | some row =>
      obtain ⟨op, base⟩ := row
      refine ⟨by simpa [hl] using hencode m, ?_⟩
      have hbase : base = modifyCycles m.mode := cycles_of_lookup hcycles hl
      simp only [hexec, shift, modifyOperand, modifyMem_p, hresult]
      rw [hbase, ← modifyMem_cycles m (value s.p.c) s]
      rfl

/-- Settles O51: the four results as numbers; the encodings on memory compared form by form. -/
theorem shiftsFollowTheirRules : Obligations.ShiftsFollowTheirRules := by
  refine ⟨shiftRule_of_exec (f := fun _ => aslResult) rfl ?asl modifyLine_cycles (fun _ => aslResult_eq) fun _ _ => rfl,
    shiftRule_of_exec (f := fun _ => lsrResult) rfl ?lsr modifyLine_cycles (fun _ => lsrResult_eq) fun _ _ => rfl,
    shiftRule_of_exec (f := rolResult) rfl ?rol modifyLine_cycles rolResult_eq fun _ _ => rfl,
    shiftRule_of_exec (f := rorResult) rfl ?ror modifyLine_cycles rorResult_eq fun _ _ => rfl⟩
  all_goals
    intro m
    cases m <;> rfl

end Sys2Proof.Proofs

/-! PROOFS. The control transfers' statements (45_control.md): jumps, calls and returns as reads and writes at the
stack's slots, the trap entry and the trap return, and the branch common rule. -/

namespace Sys2Proof.Proofs

open Sys2Proof.Machine Sys2Proof.Claims

/-! ### Jumps -/

/-- The operand bytes of a 16-bit operand as numbers (R141). -/
theorem addressBytes_eq (w : Addr) :
    [lowByte w, highByte w] = [BitVec.ofNat 8 w.toNat, BitVec.ofNat 8 (w.toNat / 256)] := by
  rw [lowByte_eq_ofNat, highByte_eq_ofNat]

/-- The second pointer address as a number: it wraps inside the pointer's page (R183). -/
theorem nextInPage_eq (w : Addr) :
    nextInPage w = BitVec.ofNat 16 (w.toNat / 256 * 256 + (w.toNat + 1) % 256) := by
  rw [nextInPage, hiLo_eq_ofNat, highByte_toNat, BitVec.toNat_add, lowByte_toNat, Nat.mod_add_mod]
  rfl

/-- Two reads, low byte first, in the statements' words. -/
theorem readPointer_eq (lo hi : Addr) (s : State) :
    readPointer lo hi s = { val := word (peek (touch s lo) hi) (peek s lo), st := touch (touch s lo) hi } := by
  rw [readPointer, hiLo_eq_ofNat]
  rfl

/-- Settles O52: the target is the operand, or the word two reads in the pointer's page give. -/
theorem jumpsFollowTheirRules : Obligations.JumpsFollowTheirRules := by
  intro s w
  refine ⟨congrArg (fun bytes => some (0x4C#8 :: bytes)) (addressBytes_eq w), rfl,
    congrArg (fun bytes => some (0x6C#8 :: bytes)) (addressBytes_eq w), ?indirect⟩
  intro w'
  have hnext : nextInPage w = w' := nextInPage_eq w
  simp only [exec, execJmp, jumpTarget, hnext, readPointer_eq, State.addCycles, State.setPC_cycles, touch_cycles]
  rfl

/-! ### Stack operations of two bytes -/

theorem emitAndWrap_setSP (s : State) (sp : Byte) (c : BitVec 7) :
    emitAndWrap (s.setSP sp) c = (emitAndWrap s c).setSP sp := by
  rw [emitAndWrap_eq, emitAndWrap_eq]
  rfl

theorem displayChar_setSP (s : State) (sp : Byte) (c : BitVec 7) :
    displayChar (s.setSP sp) c = (displayChar s c).setSP sp := by
  simp only [displayChar, State.setSP_cfg]
  split
  · rfl
  · split
    · cases s.cfg.underscorePolicy with
      | erase => rfl
      | emit => exact emitAndWrap_setSP s sp c
      | eraseThenEmit => exact emitAndWrap_setSP (erasePreviousColumn s) sp c
    · split
      · exact emitAndWrap_setSP s sp c
      · rfl

/-- A write neither sees nor changes S. -/
theorem writeByte_setSP (s : State) (sp : Byte) (a : Addr) (v : Byte) :
    writeByte (s.setSP sp) a v = (writeByte s a v).setSP sp := by
  unfold writeByte
  rw [State.setSP_cfg]
  cases regionOf s.cfg a with
  | dsp =>
    simp only [displayWrite, displayChar_setSP]
    rfl
  | ram | kbd | kbdCr | dspCr | basic | rom | vectorLow | vectorHigh | unmapped => rfl

/-- Two pushes as two writes and one lowering of S (R302). -/
theorem pushWord_eq_slot (s : State) (w : Addr) :
    pushWord s w =
      (writeByte (writeByte s (slot s.sp) (highByte w)) (slot (s.sp - 1#8)) (lowByte w)).setSP (s.sp - 2#8) := by
  have hsp : s.sp - 1#8 - 1#8 = s.sp - 2#8 := by bv_omega
  simp only [pushWord, push_eq_slot, State.setSP_sp, writeByte_setSP, hsp]
  rfl

/-- Two pulls as two reads and one raising of S (R303). -/
theorem pullWord_eq_slot (s : State) :
    let lo := slot (s.sp + 1#8)
    let hi := slot (s.sp + 2#8)
    pullWord s =
      { val := word (peek (touch s lo) hi) (peek s lo), st := (touch (touch s lo) hi).setSP (s.sp + 2#8) } := by
  intro lo hi
  have hsp : s.sp + 1#8 + 1#8 = s.sp + 2#8 := by bv_omega
  simp only [pullWord, pull_eq_slot, State.setSP_sp, peek_setSP, touch_setSP, hsp, hiLo_eq_ofNat]
  rfl

/-- Settles O53: JSR is two pushes and RTS two pulls. -/
theorem subroutineCallAndReturn : Obligations.SubroutineCallAndReturn := by
  intro s w
  refine ⟨?jsr, ?rts⟩
  case jsr =>
    intro ret t
    have hret : s.pc - 1#16 = BitVec.ofNat 16 (s.pc.toNat + 65535) := by bv_omega
    refine ⟨congrArg (fun bytes => some (0x20#8 :: bytes)) (addressBytes_eq w), ?_⟩
    simp only [exec, execJsr, pushWord_eq_slot, hret, highByte_eq_ofNat, lowByte_eq_ofNat, State.addCycles,
      State.setPC_cycles, State.setSP_cycles, writeByte_cycles]
    rfl
  case rts =>
    intro lo hi
    refine ⟨rfl, ?_⟩
    simp only [exec, execRts, pullWord_eq_slot, State.addCycles, State.setPC_cycles, State.setSP_cycles, touch_cycles]
    rfl

/-! ### Trap entry and return -/

/-- A read does not see the flags. -/
theorem peek_setP (s : State) (p : Flags) (a : Addr) : peek (s.setP p) a = peek s a :=
  peek_congr a rfl rfl rfl rfl rfl

/-- A read's side effect does not depend on the flags. -/
theorem touch_setP (s : State) (p : Flags) (a : Addr) : touch (s.setP p) a = (touch s a).setP p := by
  rw [touch_eq, touch_eq]
  rfl

/-- A word read in the statements' words (R84). -/
theorem readWord_eq (a : Addr) (s : State) :
    readWord a s =
      { val := word (peek (touch s a) (a + 1#16)) (peek s a), st := touch (touch s a) (a + 1#16) } :=
  readPointer_eq a (a + 1#16) s

/-- The three writes of a trap entry (R404). -/
def trapFrame (s : State) (ret : Addr) : State :=
  writeByte (writeByte (writeByte s (slot s.sp) (highByte ret)) (slot (s.sp - 1#8)) (lowByte ret))
    (slot (s.sp - 2#8)) s.p.pushed

@[simp] theorem trapFrame_p (s : State) (ret : Addr) : (trapFrame s ret).p = s.p := by simp [trapFrame]

@[simp] theorem trapFrame_cycles (s : State) (ret : Addr) : (trapFrame s ret).cycles = s.cycles := by simp [trapFrame]

/-- The pushes of a trap entry as three writes and one lowering of S. -/
theorem push_pushWord_eq_trapFrame (s : State) (ret : Addr) :
    push (pushWord s ret) s.p.pushed = (trapFrame s ret).setSP (s.sp - 3#8) := by
  have hsp : s.sp - 2#8 - 1#8 = s.sp - 3#8 := by bv_omega
  rw [push_eq_slot, pushWord_sp, pushWord_eq_slot, writeByte_setSP, hsp]
  rfl

/-- The trap entry: three writes, then the vector's two reads, which neither S nor I disturbs (R404). -/
theorem trapEntry_eq (s : State) (ret : Addr) :
    let t := trapFrame s ret
    trapEntry s ret =
      (((touch (touch t 0xFFFE#16) 0xFFFF#16).setSP (s.sp - 3#8)).setP { s.p with i := true }).setPC
        (word (peek (touch t 0xFFFE#16) 0xFFFF#16) (peek t 0xFFFE#16)) := by
  intro t
  have hnext : breakVector + 1#16 = 0xFFFF#16 := by decide
  simp only [trapEntry, push_pushWord_eq_trapFrame, readWord_eq, hnext, peek_setP, touch_setP, peek_setSP, touch_setSP,
    State.setSP_p, trapFrame_p]
  rfl

/-- The trap return: three reads, which neither S nor the flags disturb (R405). -/
theorem trapReturn_eq (s : State) :
    let a1 := slot (s.sp + 1#8)
    let a2 := slot (s.sp + 2#8)
    let a3 := slot (s.sp + 3#8)
    let t1 := touch s a1
    let t2 := touch t1 a2
    trapReturn s =
      (((touch t2 a3).setSP (s.sp + 3#8)).setP (Flags.pulled (peek s a1))).setPC (word (peek t2 a3) (peek t1 a2)) := by
  intro a1 a2 a3 t1 t2
  have h2 : s.sp + 1#8 + 1#8 = s.sp + 2#8 := by bv_omega
  have h3 : s.sp + 1#8 + 2#8 = s.sp + 3#8 := by bv_omega
  simp only [trapReturn, pull_eq_slot, pullWord_eq_slot, State.setP_sp, State.setSP_sp, h2, h3, peek_setP, touch_setP,
    peek_setSP, touch_setSP]
  rfl

/-- The updates that end a trap entry and a trap return, as one. -/
theorem setSP_setP_setPC_addCycles {s t : State} (h : t.cycles = s.cycles) (sp : Byte) (p : Flags) (pc : Addr)
    (n : Nat) :
    (((t.setSP sp).setP p).setPC pc).addCycles n = { t with sp := sp, p := p, pc := pc, cycles := s.cycles + n } := by
  rw [← h]
  rfl

/-- Settles O55: the trap entry with the return address and the status byte as numbers. -/
theorem breakTakesTheTrap : Obligations.BreakTakesTheTrap := by
  intro s ret status t₁ t₂ t
  have hret : s.pc + 1#16 = BitVec.ofNat 16 (s.pc.toNat + 1) := by bv_omega
  have ht : trapFrame s (s.pc + 1#16) = t := by
    rw [hret, trapFrame, highByte_eq_ofNat, lowByte_eq_ofNat, pushed_eq_ofNat]
  have hcycles : t.cycles = s.cycles := by rw [← ht, trapFrame_cycles]
  refine ⟨rfl, ?_⟩
  rw [exec, execBrk, trapEntry_eq, ht]
  exact congrArg Host.Outcome.next (setSP_setP_setPC_addCycles (by simpa using hcycles) _ _ _ 7)

/-- Settles O56: the trap return, whose flags are the bits of the first byte. -/
theorem returnFromInterruptRestores : Obligations.ReturnFromInterruptRestores := by
  intro s a1 a2 a3 b t1 t2
  refine ⟨rfl, ?_⟩
  rw [exec, execRti, trapReturn_eq]
  exact congrArg Host.Outcome.next (setSP_setP_setPC_addCycles (by simp) _ _ _ 6)

/-! ### The trap return after the trap entry -/

/-- In a legal configuration the break vector reads as 0x0000, without a side effect (R75, R304). -/
theorem readWord_breakVector {s : State} (h : s.cfg.legal = true) :
    readWord breakVector s = { val := 0x0000#16, st := s } := by
  have hregion {a : Addr} (ha : 0xFFFE ≤ a.toNat) : regionOf s.cfg a = .unmapped := by
    obtain ⟨hram, hport⟩ := fixed_range h (a := a) (.inr (by omega))
    exact regionOf_unmapped hram hport (by omega) (by omega)
  have hlow : regionOf s.cfg 0xFFFE#16 = .unmapped := hregion (by decide)
  have hhigh : regionOf s.cfg 0xFFFF#16 = .unmapped := hregion (by decide)
  simp [readWord_eq, breakVector, peek, touch, hlow, hhigh, word]

/-- The trap entry's jump leaves RAM as the pushes made it. -/
theorem trapEntry_ram (s : State) (ret : Addr) :
    (trapEntry s ret).ram = (push (pushWord s ret) s.p.pushed).ram := by
  simp [trapEntry]

section Slots

variable {s t : State}

/-- Two pulls read the RAM bytes of the two slots above S (R89). -/
theorem pullWord_val_of_slot {sp : Byte} (hsp : t.sp = sp - 2#8) (h0 : (slot sp).toNat < t.cfg.ramSize)
    (h1 : (slot (sp - 1#8)).toNat < t.cfg.ramSize) :
    (pullWord t).val = hiLo (Memory.get t.ram (slot sp).toNat) (Memory.get t.ram (slot (sp - 1#8)).toNat) := by
  have hlow : (pull t).val = Memory.get t.ram (slot (sp - 1#8)).toNat :=
    pull_val_of_slot (by rw [hsp]; bv_omega) h1
  have hhigh : (pull (pull t).st).val = Memory.get t.ram (slot sp).toNat := by
    rw [pull_val_of_slot (sp := sp) (by rw [pull_sp, hsp]; bv_omega) (by rwa [pull_cfg]), pull_ram]
  rw [← hhigh, ← hlow]
  rfl

variable (hw : Memory.wf s.ram = true) (h0 : (slot s.sp).toNat < s.cfg.ramSize)
  (h1 : (slot (s.sp - 1#8)).toNat < s.cfg.ramSize) (hcfg : t.cfg = s.cfg)
include hw h0 h1 hcfg

/-- Two pulls give the word of the two pushes two slots up, also after the third push of a trap entry (R404, R405). -/
theorem pullWord_val_of_push_pushWord {w : Addr} {v : Byte} (hram : t.ram = (push (pushWord s w) v).ram)
    (hsp : t.sp = s.sp - 2#8) : (pullWord t).val = w := by
  have hwHigh : Memory.wf (push s (highByte w)).ram = true := push_wf hw _
  have hwWord : Memory.wf (pushWord s w).ram = true := push_wf hwHigh _
  have hhigh : Memory.get t.ram (slot s.sp).toNat = highByte w := by
    rw [hram, push_get_slot_of_ne hwWord _ (by rw [pushWord_sp]; bv_omega), pushWord,
      push_get_slot_of_ne hwHigh _ (by rw [push_sp]; bv_omega), push_get_slot hw _ h0]
  have hlow : Memory.get t.ram (slot (s.sp - 1#8)).toNat = lowByte w := by
    rw [hram, push_get_slot_of_ne hwWord _ (by rw [pushWord_sp]; bv_omega), pushWord, ← push_sp (highByte w) s,
      push_get_slot hwHigh _ (by simpa using h1)]
  rw [pullWord_val_of_slot hsp (hcfg ▸ h0) (hcfg ▸ h1), hhigh, hlow, hiLo_halves]

/-- Where the three slots are RAM, a trap return gives back what the trap entry pushed, whatever else has changed in
between but the configuration, RAM and S (R404, R405). -/
theorem trapReturn_of_trapEntry {ret : Addr} (h2 : (slot (s.sp - 2#8)).toNat < s.cfg.ramSize)
    (hram : t.ram = (trapEntry s ret).ram) (hsp : t.sp = s.sp - 3#8) :
    (trapReturn t).pc = ret ∧ (trapReturn t).p = s.p := by
  rw [trapEntry_ram] at hram
  have hstatus : (pull t).val = s.p.pushed :=
    pull_val_of_push (s := pushWord s ret) (push_wf (push_wf hw _) _) (by rwa [pushWord_sp, pushWord_cfg])
      (by rw [hcfg, pushWord_cfg]) hram (by rw [hsp, pushWord_sp]; bv_omega)
  refine ⟨?pc, ?flags⟩
  case pc =>
    exact pullWord_val_of_push_pushWord hw h0 h1 (t := (pull t).st.setP _) (by simpa using hcfg) (by simpa using hram)
      (by rw [State.setP_sp, pull_sp, hsp]; bv_omega)
  case flags =>
    simp [trapReturn, hstatus, Flags.pulled_pushed]

end Slots

/-- Settles O57: the vector is unmapped, and the three pulls read back what the trap entry pushed. -/
theorem rtiUndoesBrk : Obligations.RtiUndoesBrk := by
  intro s hlegal hw
  refine ⟨(trapEntry s (s.pc + 1#16)).addCycles 7, rfl, ?vector, by simp, by simp, fun h0 h1 h2 => ?returns⟩
  case vector =>
    rw [State.addCycles_pc, trapEntry, readWord_breakVector (by simpa using hlegal)]
    rfl
  case returns =>
    obtain ⟨hpc, hp⟩ :=
      trapReturn_of_trapEntry (t := (trapEntry s (s.pc + 1#16)).addCycles 7) hw h0 h1 (by simp) h2
        (State.addCycles_ram _ 7) (by simp)
    exact ⟨_, rfl, (State.addCycles_pc _ 6).trans hpc, (State.addCycles_p _ 6).trans hp, by simp⟩

/-! ### Branches -/

/-- The branch target as a number (R184). -/
theorem branchTarget_eq (pc : Addr) (off : Byte) : branchTarget pc off = BitVec.ofInt 16 (pc.toNat + off.toInt) := by
  rw [branchTarget, BitVec.ofInt_add, BitVec.ofInt_natCast, BitVec.ofNat_toNat, BitVec.setWidth_eq]
  rfl

/-- The branch common rule holds of a mnemonic with its encoding and one `branch` under the rule's condition (R306). -/
theorem branchRule_of_exec {mk : Byte → Instr} {op : Byte} {cond : Flags → Bool}
    (hencode : ∀ off, encode (mk off) = some [op, off])
    (hexec : ∀ off s, exec (mk off) s = .next (branch (cond s.p) off s)) : BranchRule mk op cond := by
  intro off s target
  refine ⟨hencode off, ?_⟩
  have htarget : branchTarget s.pc off = target := branchTarget_eq s.pc off
  rw [hexec, branch, htarget]
  simp only [page_eq_iff]
  rfl

/-- Settles O58: the eight branches differ in their opcode byte and their condition. -/
theorem branchesFollowTheirRules : Obligations.BranchesFollowTheirRules := by
  refine ⟨?bcc, ?bcs, ?beq, ?bne, ?bmi, ?bpl, ?bvc, ?bvs⟩
  all_goals exact branchRule_of_exec (fun _ => rfl) fun _ _ => rfl

end Sys2Proof.Proofs

/-! PROOFS. The flag instructions' and undefined opcodes' statements (46_flags_misc.md): the two ways a step stops, the
runs that never do, and the instructions that move one flag or none. -/

namespace Sys2Proof.Proofs

open Sys2Proof.Machine Sys2Proof.Claims

/-! ### How a step stops -/

/-- Whether the machine runs does not depend on the agenda. -/
@[simp] theorem running_turnTaken {s : State} : Running (turnTaken s) ↔ Running s :=
  ⟨fun h => ⟨h.booted, h.healthy⟩, fun h => ⟨h.booted, h.healthy⟩⟩

theorem running_iff {s : State} : Running s ↔ s.booted = true ∧ s.faulted = false :=
  ⟨fun h => ⟨h.booted, h.healthy⟩, fun ⟨hb, hf⟩ => ⟨hb, hf⟩⟩

theorem cpuStep_of_not_booted {s : State} (h : s.booted = false) : cpuStep s = .fault .notBooted :=
  if_pos h

theorem cpuStep_of_faulted {s : State} (hb : s.booted = true) (hf : s.faulted = true) :
    cpuStep s = .fault .faultedState := by
  simp [cpuStep, hb, hf]

/-- A running machine's CPU step answers a next state: every instruction has a meaning (R343). -/
theorem cpuStep_next_of_running {s : State} (h : Running s) : ∃ t, cpuStep s = .next t := by
  obtain ⟨t, ht, -⟩ := exec_effect (fetchInstr s).val (fetchInstr s).st
  exact ⟨t, (cpuStep_of_running h).trans ht⟩

/-- Settles O7: a host move never stops, and a CPU step is one of three by the boot bit and the faulted bit. -/
theorem stepStopsOnlyBeforeResetOrAfterFault : Obligations.StepStopsOnlyBeforeResetOrAfterFault := by
  intro s
  rcases step_cases s with ⟨hturn, hstep⟩ | ⟨m, rest, hagenda, hstep⟩
  · rw [hstep]
    cases hb : s.booted with
    | false => simp [cpuStep_of_not_booted (s := turnTaken s) hb, running_iff, hturn, hb]
    | true =>
      cases hf : s.faulted with
      | true => simp [cpuStep_of_faulted (s := turnTaken s) hb hf, running_iff, hturn, hb, hf]
      | false =>
        obtain ⟨t, ht⟩ := cpuStep_next_of_running (s := turnTaken s) ⟨hb, hf⟩
        simp [ht]
  · have hturn : ¬ CpuTurn s := by simp [CpuTurn, hagenda]
    simp [hstep, hturn]

/-! ### Runs under `nop_report` -/

@[simp] theorem fetchByte_faulted (s : State) : (fetchByte s).st.faulted = s.faulted := by
  simp [fetchByte, readByte]

theorem fetchInstr_faulted (s : State) : (fetchInstr s).st.faulted = s.faulted := by
  unfold fetchInstr
  dsimp only
  split <;> simp

/-- Under `nop_report` no instruction enters the faulted state (R338, R339). -/
theorem exec_faulted_of_nopReport {i : Instr} {s t : State} (hp : s.cfg.illegalPolicy = .nopReport)
    (h : exec i s = .next t) : t.faulted = s.faulted := by
  by_cases hi : ∃ op, i = .undefined op
  · obtain ⟨op, rfl⟩ := hi
    rw [exec_undefined] at h
    cases h
    simp [hp]
  · obtain ⟨u, hu, haccess⟩ := exec_access i s fun op h => hi ⟨op, h⟩
    obtain rfl : t = u := Host.Outcome.next.inj (h.symm.trans hu)
    obtain ⟨-, -, hfaulted⟩ := haccess.fixed
    exact hfaulted

/-- What keeps a machine from ever stopping: it runs, and undefined opcodes are only reported. -/
structure Unstoppable (s : State) : Prop where
  running : Running s
  policy  : s.cfg.illegalPolicy = .nopReport

/-- A CPU step that answers keeps the boot bit, the parameters and, under `nop_report`, the faulted bit. -/
theorem Unstoppable.cpuStep {s t : State} (h : Unstoppable s) (ht : cpuStep s = .next t) : Unstoppable t := by
  obtain ⟨-, hexec, he⟩ := cpuStep_effect ht
  have hp : (fetchInstr s).st.cfg.illegalPolicy = .nopReport := by rw [(fetchInstr_effect s).cfg, h.policy]
  have hf : t.faulted = s.faulted := (exec_faulted_of_nopReport hp hexec).trans (fetchInstr_faulted s)
  exact ⟨⟨he.booted.trans h.running.booted, hf.trans h.running.healthy⟩, by rw [he.cfg, h.policy]⟩

/-- The host can neither switch the machine off nor fault it. -/
theorem Unstoppable.hostMove {s : State} (h : Unstoppable s) (m : HostMove) : Unstoppable (hostMove m s) := by
  obtain ⟨hcfg, -, hf, -, -, -, hb⟩ := hostMove_frame m s
  exact ⟨⟨hb h.running.booted, hf.trans h.running.healthy⟩, by rw [hcfg, h.policy]⟩

/-- Every step of an unstoppable machine, the CPU's or another agent's, ends in an unstoppable machine. -/
theorem Unstoppable.step {s : State} (h : Unstoppable s) : ∃ t, step s = .next t ∧ Unstoppable t := by
  have hs : Unstoppable (turnTaken s) := ⟨running_turnTaken.mpr h.running, h.policy⟩
  rcases step_cases s with ⟨-, hstep⟩ | ⟨m, rest, -, hstep⟩
  · obtain ⟨t, ht⟩ := cpuStep_next_of_running hs.running
    exact ⟨t, hstep.trans ht, hs.cpuStep ht⟩
  · exact ⟨_, hstep, hs.hostMove m⟩

/-- A run takes its first step, if that answers a next state, and goes on from there. -/
theorem run_succ_of_step {s t : State} (h : step s = .next t) (n : Nat) : core.run (n + 1) s = core.run n t := by
  have hcore : core.step s = .next t := h
  simp only [Host.Core.run, hcore]

/-- What every step keeps, every run of every length keeps, and the run does not stop. -/
theorem run_of_step_keeps {P : State → Prop} (hstep : ∀ s, P s → ∃ t, step s = .next t ∧ P t) (n : Nat) {s : State}
    (hs : P s) : ∃ t, core.run n s = .next t ∧ P t := by
  induction n generalizing s with
  | zero => exact ⟨s, rfl, hs⟩
  | succ n ih =>
    obtain ⟨t, ht, hPt⟩ := hstep s hs
    rw [run_succ_of_step ht]
    exact ih hPt

/-- Settles O8: being unstoppable is kept by every step, so by every run. -/
theorem runsNeverStop : Obligations.RunsNeverStop := by
  intro n s hrun hpolicy
  obtain ⟨t, ht, hend⟩ := run_of_step_keeps (fun _ h => h.step) n (Unstoppable.mk hrun hpolicy)
  exact ⟨t, ht, hend.running⟩

/-! ### Flag instructions and NOP -/

/-- Settles O59: each is an update of at most one flag and then two cycles. -/
theorem flagInstructionsFollowTheirRules : Obligations.FlagInstructionsFollowTheirRules := by
  refine ⟨?clc, ?sec, ?cli, ?sei, ?cld, ?sed, ?clv, ?nop⟩
  all_goals exact impliedRule_of_exec rfl (fun _ => rfl) fun _ => rfl

/-! ### Undefined opcodes -/

/-- The fetch of an undefined opcode from no port fetches that one byte (R142, R340). -/
theorem fetchInstr_of_undefinedOpcode {s : State} (hport : NoPort s.cfg s.pc) (hop : peek s s.pc ∈ undefinedOpcodes) :
    fetchInstr s =
      { val := .undefined (peek s s.pc)
        st := (s.setPC (s.pc + 1#16)).setTrace { lastPC := s.pc, lastOpcode := peek s s.pc } } := by
  have hfetch := fetchByte_noPort hport
  have hshape : shapeOf (fetchByte s).val = none := by rw [hfetch]; exact shapeOf_undefined hop
  rw [fetchInstr_undefined hshape, traceAt, hfetch]

/-- Settles O60: what `exec` answers, after a fetch of one byte; a machine it has faulted stops at its next turn. -/
theorem undefinedOpcodeIsANop : Obligations.UndefinedOpcodeIsANop := by
  refine ⟨fun op s => ?exec, fun s hrun hturn hport hop => ⟨_, ?step, rfl, fun hpolicy l => ?stops⟩⟩
  case exec =>
    have hpc : s.pc - 1#16 = BitVec.ofNat 16 (s.pc.toNat + 65535) := by bv_omega
    rw [exec_undefined, hpc]
  case step =>
    have hpeek : peek (turnTaken s) s.pc = peek s s.pc := peek_congr s.pc rfl rfl rfl rfl rfl
    have hfetch : fetchInstr (turnTaken s) =
        { val := .undefined (peek s s.pc)
          st := ((turnTaken s).setPC (s.pc + 1#16)).setTrace { lastPC := s.pc, lastOpcode := peek s s.pc } } :=
      hpeek ▸ fetchInstr_of_undefinedOpcode (s := turnTaken s) hport (hpeek.symm ▸ hop)
    have hhealthy : (turnTaken s).faulted = false := hrun.healthy
    rw [step_of_cpuTurn hturn, cpuStep_of_running (running_turnTaken.mpr hrun), hfetch, exec_undefined]
    simp only [State.setTrace_pc, State.setTrace_faulted, State.setPC_pc, State.setPC_faulted, BitVec.add_sub_cancel,
      hhealthy, Bool.false_or]
    rfl
  case stops =>
    rw [step_of_cpuTurn (.inr rfl)]
    exact cpuStep_of_faulted hrun.booted (decide_eq_true hpolicy)

end Sys2Proof.Proofs

/-! PROOFS. The host moves' statements (60_exceptions.md): a move is one step, a bulk load is all or nothing, and a bulk
save answers bytes that a load puts back. -/

namespace Sys2Proof.Proofs

open Sys2Proof.Machine Sys2Proof.Claims

/-! ### Bulk copies in and out of RAM -/

/-- The byte that is k-th in the list copied is at the k-th address after the copy. -/
theorem get_load_of_getElem? {m : Memory} (h : Memory.wf m = true) (a : Nat) {bs : List Byte} {k : Nat} {b : Byte}
    (hk : bs[k]? = some b) : Memory.get (Memory.load m a bs) (a + k) = b := by
  obtain ⟨hlt, -⟩ := List.getElem?_eq_some_iff.mp hk
  rw [Memory.get_load h, if_pos (by omega), Nat.add_sub_cancel_left, List.getD_eq_getElem?_getD, hk]
  rfl

/-- An address outside the range copied to keeps its byte. -/
theorem get_load_outside {m : Memory} (h : Memory.wf m = true) {a b : Nat} {bs : List Byte}
    (hb : b < a ∨ a + bs.length ≤ b) : Memory.get (Memory.load m a bs) b = Memory.get m b := by
  rw [Memory.get_load h, if_neg (by omega)]

theorem getElem?_save (m : Memory) (a : Nat) {n k : Nat} (hk : k < n) :
    (Memory.save m a n)[k]? = some (Memory.get m (a + k)) := by
  have hlt : k < (Memory.save m a n).length := hk.trans_eq (Memory.length_save m a n).symm
  rw [List.getElem?_eq_getElem hlt, ← List.getD_eq_getElem _ 0x00#8 hlt, Memory.getD_save m a n k hk]

/-- Canonical RAM is determined by its bytes, so the bytes of a range copied back to it leave the same RAM. -/
theorem load_save {m : Memory} (h : Memory.wf m = true) (a n : Nat) : Memory.load m a (Memory.save m a n) = m := by
  refine Memory.ext (Memory.wf_load a _ h) h fun b => ?_
  by_cases hb : a ≤ b ∧ b < a + n
  · obtain ⟨k, rfl⟩ := Nat.exists_eq_add_of_le hb.1
    exact get_load_of_getElem? h a (getElem?_save m a (by omega))
  · exact get_load_outside h (by rw [Memory.length_save]; omega)

/-! ### The bulk moves -/

theorem bulkLoadMove_of_pastEnd {s : State} {address : Nat} {bytes : List Byte}
    (h : s.cfg.ramSize < address + bytes.length) : bulkLoadMove s address bytes = s.reply .rejected :=
  if_pos h

theorem bulkLoadMove_of_fits {s : State} {address : Nat} {bytes : List Byte}
    (h : address + bytes.length ≤ s.cfg.ramSize) :
    bulkLoadMove s address bytes = (s.setRam (Memory.load s.ram address bytes)).reply .loaded :=
  if_neg (Nat.not_lt.mpr h)

theorem bulkSaveMove_of_badRange {s : State} {first last : Nat} (h : s.cfg.ramSize ≤ last ∨ last < first) :
    bulkSaveMove s first last = s.reply .rejected :=
  if_pos h

theorem bulkSaveMove_of_range {s : State} {first last : Nat} (hlast : last < s.cfg.ramSize) (hfirst : first ≤ last) :
    bulkSaveMove s first last = s.reply (.saved (Memory.save s.ram first (last - first + 1))) :=
  if_neg (by omega)

/-- Settles O35: the two cases of the move, and the bytes of the RAM it leaves in the second. -/
theorem bulkLoadIsAllOrNothing : Obligations.BulkLoadIsAllOrNothing := by
  refine fun s address bytes hw => ⟨bulkLoadMove_of_pastEnd, fun hfits => ?fits⟩
  exact ⟨_, bulkLoadMove_of_fits hfits, fun _ _ => get_load_of_getElem? hw address, fun _ => get_load_outside hw⟩

/-- Settles O36: the bytes answered are the range's, and `load_save` gives the round trip. -/
theorem bulkSaveAnswersRam : Obligations.BulkSaveAnswersRam := by
  refine fun s first last hw => ⟨bulkSaveMove_of_badRange, fun hlast hfirst => ?range⟩
  have hlength := Memory.length_save s.ram first (last - first + 1)
  refine ⟨_, bulkSaveMove_of_range hlast hfirst, hlength, fun k hk => getElem?_save s.ram first (by omega), ?load⟩
  rw [bulkLoadMove_of_fits (by omega), load_save hw]
  rfl

/-! ### A host move is one step -/

/-- A step at the host's turn is the host's move, with its agenda entry used up. -/
theorem step_of_hostTurn {s : State} {m : HostMove} {rest : List Move} (h : s.agenda = .host m :: rest) :
    step s = .next (hostMove m (s.setAgenda rest)) := by
  simp only [step, h]

/-- Settles O34: each move at its turn; the read's answer does not depend on the agenda. -/
theorem hostMovesAreSteps : Obligations.HostMovesAreSteps := by
  intro s rest c v a ticks
  refine ⟨?setKey, ?read, ?write, ?reset, ?clock⟩
  all_goals rw [step_of_hostTurn rfl]
  case read =>
    have hpeek : peek (s.setAgenda rest) a = peek s a := peek_congr a rfl rfl rfl rfl rfl
    rw [← hpeek]
    simp only [hostMove, readMove, readByte, State.reply, touch_replies]
    rfl
  all_goals rfl

end Sys2Proof.Proofs

/-! PROOFS. The statements about construction and reset (70_reset_and_hazards.md): the legal parameters, the reset vector,
and what `reset()` sets. -/

namespace Sys2Proof.Proofs

open Sys2Proof.Machine Sys2Proof.Claims

/-! ### Construction -/

theorem construct_of_illegal {cfg : Config} (u : PowerOn) (h : cfg.legal = false) :
    State.construct cfg u = .refused .configurationError :=
  if_neg (Bool.eq_false_iff.mp h)

theorem construct_of_legal {cfg : Config} (u : PowerOn) (h : cfg.legal = true) :
    State.construct cfg u = .next (atConstruction cfg u) :=
  if_pos h

/-- Settles O31: `legal_iff` with its condition on the window width given, and the two outcomes of construction. -/
theorem constructionRequiresLegalParameters : Obligations.ConstructionRequiresLegalParameters := by
  refine fun cfg u hwidth => ⟨?legal, construct_of_illegal u, fun hlegal => ?fields⟩
  case legal => simp only [legal_iff, hwidth, true_and]
  case fields => exact ⟨_, construct_of_legal u hlegal, rfl, rfl, rfl, rfl, rfl, rfl, rfl, rfl⟩

/-! ### Reset -/

/-- Settles O32: the read of the reset vector gives the reset address and leaves the state as it was. -/
theorem resetSetsTheRegisters : Obligations.ResetSetsTheRegisters := by
  intro s h
  rw [resetMove, readWord_resetVector h]
  rfl

/-- Settles O29: no RAM is read, because the decode gives both bytes of the reset vector from the configuration. -/
theorem resetVectorIsTheResetAddress : Obligations.ResetVectorIsTheResetAddress := by
  refine fun s h => ⟨readWord_resetVector h, ?pc⟩
  rw [resetSetsTheRegisters s h]

/-- In a legal configuration the state after `reset()` depends only on what `reset()` does not set (R456). -/
theorem resetMove_congr_registers {s : State} (h : s.cfg.legal = true) (a x y sp : Byte) (pc : Addr) (p : Flags)
    (booted : Bool) :
    resetMove { s with a := a, x := x, y := y, sp := sp, pc := pc, p := p, booted := booted } = resetMove s := by
  rw [resetSetsTheRegisters s h]
  exact resetSetsTheRegisters _ h

/-- Settles O33: the state after one reset differs from `s` only in what a reset sets, so a second reset gives the
same state as the first. -/
theorem resetIsIdempotent : Obligations.ResetIsIdempotent := by
  refine fun s a x y sp pc p booted h => ⟨?twice, resetMove_congr_registers h a x y sp pc p booted⟩
  calc resetMove (resetMove s)
      = resetMove _ := congrArg resetMove (resetSetsTheRegisters s h)
    _ = resetMove s := resetMove_congr_registers h _ _ _ _ _ _ _

end Sys2Proof.Proofs
